-- ==== Sys2Proof/Word.lean ====
section
/-! DEFINITION. The value types of the Keccak core: bytes, 32-bit words, 64-bit lanes (R7) and the 5×5 lane
array (R8, R21), with the plain accessors every step mapping is written in. -/

namespace Sys2Proof

/-- An unsigned 8-bit byte (R7). -/
abbrev Byte := BitVec 8

/-- A 32-bit command, micro-operation or response word (R61, R63, R66). -/
abbrev Word := BitVec 32

/-- An unsigned 64-bit lane, bit 0 least significant (R7, R22). -/
abbrev Lane := BitVec 64

/-- The 5 lanes `A[0..4][y]` with one `y` (a row, or plane, of R14). -/
structure Row where
  x0 : Lane
  x1 : Lane
  x2 : Lane
  x3 : Lane
  x4 : Lane
  deriving DecidableEq, Repr

/-- The lane array: exactly 25 lanes of 64 bits in a 5×5 grid (R21). -/
structure Lanes where
  y0 : Row
  y1 : Row
  y2 : Row
  y3 : Row
  y4 : Row
  deriving DecidableEq, Repr

/-- Lane `x` of a row. -/
def Row.get (r : Row) : Fin 5 → Lane
  | 0 => r.x0
  | 1 => r.x1
  | 2 => r.x2
  | 3 => r.x3
  | 4 => r.x4

/-- The row whose lane `x` is `f x`. -/
def Row.ofFn (f : Fin 5 → Lane) : Row := ⟨f 0, f 1, f 2, f 3, f 4⟩

/-- Row `y` of a lane array. -/
def Lanes.row (A : Lanes) : Fin 5 → Row
  | 0 => A.y0
  | 1 => A.y1
  | 2 => A.y2
  | 3 => A.y3
  | 4 => A.y4

/-- `A[x][y]` (R8, R12). -/
def Lanes.get (A : Lanes) (x y : Fin 5) : Lane := (A.row y).get x

/-- The lane array whose lane `(x, y)` is `f x y`: a whole new array, all reads in `f` being of the input
(R12). -/
def Lanes.ofFn (f : Fin 5 → Fin 5 → Lane) : Lanes :=
  ⟨.ofFn (f · 0), .ofFn (f · 1), .ofFn (f · 2), .ofFn (f · 3), .ofFn (f · 4)⟩

/-- The all-zero lane array (R35). -/
def Lanes.zero : Lanes := .ofFn fun _ _ => 0

end Sys2Proof
end

