-- ==== Sys2Proof/Config.lean ====
section
/-! DEFINITION. The implementation parameters of R5: what one hardware instance fixes when it is built. -/

namespace Sys2Proof

/-- VARIANT (R5): the two legal hardware instances, fixed per instance. Every other RATE/OUTLEN pair is
exploration only (R5, D33) and has no value here. -/
inductive Variant where
  | keccak256
  | keccak512
  deriving DecidableEq, Repr

/-- RATE in bytes (R5, R28). -/
def Variant.rate : Variant → Nat
  | .keccak256 => 136
  | .keccak512 => 72

/-- OUTLEN in bytes (R5, R28). -/
def Variant.outlen : Variant → Nat
  | .keccak256 => 32
  | .keccak512 => 64

/-- DSBYTE: 0x01 for both variants (R5, R28). -/
def Variant.dsByte : Variant → Byte
  | .keccak256 => 0x01
  | .keccak512 => 0x01

/-- CAPACITY in bytes: 200 - RATE (R5, R6). -/
def Variant.capacity (v : Variant) : Nat := 200 - v.rate

/-- The 8-bit RATE field of CFG (R28, D10). -/
def Variant.rateByte (v : Variant) : Byte := BitVec.ofNat 8 v.rate

/-- The 8-bit OUTLEN field of CFG (R28, D10). -/
def Variant.outlenByte (v : Variant) : Byte := BitVec.ofNat 8 v.outlen

/-- SNAPLEN in bytes: 217 + RATE (R5, R180). -/
def Variant.snapLen (v : Variant) : Nat := 217 + v.rate

/-- SNAP_VERSION (R5, R180, D13). -/
def Config.snapVersion : Byte := 0x01

/-- VARIANT of the instance that `State.reset` describes. DESIGN CHOICE (log 1): the spec fixes VARIANT per
instance and names neither row as the default; every statement that is not about this one constant holds
for both variants. -/
def Config.variant : Variant := .keccak256

end Sys2Proof
end

