-- ==== Sys2Proof/Syntax.lean ====
section
/-! DEFINITION. The instructions: one constructor per row of spec/opcode_table.json, the 7 host commands of R65
and the 10 micro-operations of R66. A command carries its payload bytes (R62, R70: a command is its word and
LEN payload bytes). -/

namespace Sys2Proof

/-- The T bit of format MICRO (R66): the lane array a micro-operation works on. -/
inductive Target where
  /-- T = 0: the permutation state A. -/
  | a
  /-- T = 1: the SUM scratch S. -/
  | s
  deriving DecidableEq, Repr

/-- The instruction set. -/
inductive Instr where
  /-- WRITE, OPC 0x01 (R150). -/
  | write (payload : List Byte)
  /-- SUM, OPC 0x02 (R152). -/
  | sum
  /-- RESET, OPC 0x03 (R154). -/
  | reset
  /-- SIZE, OPC 0x04 (R155). -/
  | size
  /-- BLOCKSIZE, OPC 0x05 (R156). -/
  | blockSize
  /-- MARSHAL, OPC 0x06 (R181). -/
  | marshal
  /-- UNMARSHAL, OPC 0x07 (R182). -/
  | unmarshal (payload : List Byte)
  /-- KECCAK_F, MOPC 0x80 (R100). -/
  | keccakF (t : Target)
  /-- ROUND, MOPC 0x81 (R102); RI is 0..23. -/
  | round (ri : Fin 24) (t : Target)
  /-- THETA, MOPC 0x82 (R103). -/
  | theta (t : Target)
  /-- RHO, MOPC 0x83 (R104). -/
  | rho (t : Target)
  /-- PI, MOPC 0x84 (R106). -/
  | pi (t : Target)
  /-- CHI, MOPC 0x85 (R107). -/
  | chi (t : Target)
  /-- IOTA, MOPC 0x86 (R108); RI is 0..23. -/
  | iota (ri : Fin 24) (t : Target)
  /-- ABSORB_BLOCK, MOPC 0x88 (R130). -/
  | absorbBlock (t : Target)
  /-- PAD, MOPC 0x89 (R131); it has no target. -/
  | pad
  /-- SQUEEZE, MOPC 0x8A (R133). -/
  | squeeze (t : Target)
  deriving DecidableEq, Repr

/-- The payload bytes of a command (R62); every other instruction has none. -/
def Instr.payload : Instr → List Byte
  | .write p => p
  | .unmarshal p => p
  | .sum | .reset | .size | .blockSize | .marshal => []
  | .keccakF _ | .round _ _ | .theta _ | .rho _ | .pi _ | .chi _ | .iota _ _ => []
  | .absorbBlock _ | .pad | .squeeze _ => []

/-- Is the instruction a host command (R65), not an internal micro-operation (R66)? -/
def Instr.hostIssuable : Instr → Bool
  | .write _ | .sum | .reset | .size | .blockSize | .marshal | .unmarshal _ => true
  | .keccakF _ | .round _ _ | .theta _ | .rho _ | .pi _ | .chi _ | .iota _ _ => false
  | .absorbBlock _ | .pad | .squeeze _ => false

end Sys2Proof
end

