-- ==== Sys2Proof/WellFormed.lean ====
section
/-! DEFINITION. Which terms of `Instr` are instructions: LEN is a 24-bit field (R61), so a payload has at most
2^24 - 1 bytes. The round index of ROUND and IOTA is 0..23 by its type. -/

namespace Sys2Proof

/-- One more than the greatest LEN (R61, R65: 0..2^24-1). -/
def lenBound : Nat := 2 ^ 24

/-- Every operand fits its encoding field. -/
def Instr.wf (i : Instr) : Bool := decide (i.payload.length < lenBound)

end Sys2Proof
end

