-- ==== Sys2Proof/Decode.lean ====
section
/-! DEFINITION. The encodings (R61, R65 to R68, R70, R71): fields, the decoder of host commands, the decoder of
micro-operation words, and the encoder written from the same tables. Every decoder is total and rejects by
name. -/

namespace Sys2Proof

/-- Why a word is not an instruction. -/
inductive DecodeError where
  /-- OPC not in 0x01..0x07 (R67, check 1 of R71). -/
  | reservedOpcode
  /-- OPC in 0x02..0x06 with LEN not 0 (R68, check 2 of R71). -/
  | lengthNotZero
  /-- The payload handed over is not LEN bytes long (R62): framing never does this. -/
  | payloadLength
  /-- A byte stream that ends inside a command word or its payload (R62, R70). -/
  | truncated
  /-- A MOPC outside 0x80..0x86 and 0x88..0x8A (R66; 0x87 is reserved). -/
  | reservedMicro
  /-- A MICRO field that the format (R66) or the word's row of spec/opcode_table.json fixes at 0 is not 0. -/
  | microBits
  /-- RI is 24..31 in a ROUND or IOTA word (R66, R102). -/
  | roundIndex
  deriving DecidableEq, Repr

/-! ### Fields -/

/-- OPC or MOPC, bits [7:0] (R61, R66). -/
def opcField (w : Word) : Byte := w.extractLsb' 0 8

/-- LEN, bits [31:8], zero-extended to a count (R61). -/
def lenField (w : Word) : Nat := (w.extractLsb' 8 24).toNat

/-- RI, bits [12:8] (R66). -/
def riField (w : Word) : BitVec 5 := w.extractLsb' 8 5

/-- T, bit [13]: 0 = A, 1 = S (R66). -/
def targetField (w : Word) : Target := if w.extractLsb' 13 1 = 0#1 then .a else .s

/-- Bits [31:14], zero in format MICRO (R66). -/
def highField (w : Word) : BitVec 18 := w.extractLsb' 14 18

/-- The four bytes of a word, least significant first (R45). -/
def wordBytes (w : Word) : List Byte :=
  [w.extractLsb' 0 8, w.extractLsb' 8 8, w.extractLsb' 16 8, w.extractLsb' 24 8]

/-- The word whose bytes, least significant first, are `b0 b1 b2 b3` (R45). -/
def wordOfBytes (b0 b1 b2 b3 : Byte) : Word :=
  (b3.setWidth 32 <<< 24) ||| (b2.setWidth 32 <<< 16) ||| (b1.setWidth 32 <<< 8) ||| b0.setWidth 32

/-! ### Decoding -/

/-- The command of a command word and its payload, with the checks in the order of R71. -/
def decodeWord (w : Word) (payload : List Byte) : Except DecodeError Instr :=
  if opcField w < 0x01 ∨ 0x07 < opcField w then .error .reservedOpcode
  else if 0x02 ≤ opcField w ∧ opcField w ≤ 0x06 ∧ lenField w ≠ 0 then .error .lengthNotZero
  else if opcField w = 0x01 then .ok (.write payload)
  else if opcField w = 0x02 then .ok .sum
  else if opcField w = 0x03 then .ok .reset
  else if opcField w = 0x04 then .ok .size
  else if opcField w = 0x05 then .ok .blockSize
  else if opcField w = 0x06 then .ok .marshal
  else .ok (.unmarshal payload)

/-- `decodeWord` on a payload of exactly LEN bytes (R62). -/
def decodeCommand (w : Word) (payload : List Byte) : Except DecodeError Instr :=
  match decodeWord w payload with
  | .error e => .error e
  | .ok i => if payload.length = lenField w then .ok i else .error .payloadLength

/-- The micro-operation of a MICRO word whose RI must be 0. -/
def microPlain (w : Word) (i : Instr) : Except DecodeError Instr :=
  if riField w = 0 then .ok i else .error .microBits

/-- The micro-operation of a MICRO word whose RI is a round index 0..23. -/
def microRound (w : Word) (f : Fin 24 → Instr) : Except DecodeError Instr :=
  if h : (riField w).toNat < 24 then .ok (f ⟨(riField w).toNat, h⟩) else .error .roundIndex

/-- The micro-operation of a MICRO word (R66). PAD has no target (R74), and its row of spec/opcode_table.json fixes T
at 0: a word with MOPC 0x89 and T = 1 matches no row. -/
def decodeMicro (w : Word) : Except DecodeError Instr :=
  if highField w ≠ 0 then .error .microBits
  else if opcField w = 0x80 then microPlain w (.keccakF (targetField w))
  else if opcField w = 0x81 then microRound w (.round · (targetField w))
  else if opcField w = 0x82 then microPlain w (.theta (targetField w))
  else if opcField w = 0x83 then microPlain w (.rho (targetField w))
  else if opcField w = 0x84 then microPlain w (.pi (targetField w))
  else if opcField w = 0x85 then microPlain w (.chi (targetField w))
  else if opcField w = 0x86 then microRound w (.iota · (targetField w))
  else if opcField w = 0x88 then microPlain w (.absorbBlock (targetField w))
  else if opcField w = 0x89 then (if targetField w = .a then microPlain w .pad else .error .microBits)
  else if opcField w = 0x8A then microPlain w (.squeeze (targetField w))
  else .error .reservedMicro

/-- Does a word lie in the micro-operation space 0x80..0xFF (R66, R67)? -/
def inMicroSpace (w : Word) : Bool := decide (0x80 ≤ opcField w)

/-- A word of the opcode table: a MICRO word in the micro-operation space, a CMD word elsewhere. The host can
send only what `decodeCommand` accepts; a MICRO word is the sequencer's (R66). -/
def decodeEither (w : Word) (payload : List Byte) : Except DecodeError Instr :=
  if inMicroSpace w then decodeMicro w else decodeWord w payload

/-- The first command of a host byte stream and what follows it (R70): a word, least significant byte first
(R45), then LEN payload bytes. -/
def decode : List Byte → Except DecodeError (Instr × List Byte)
  | b0 :: b1 :: b2 :: b3 :: rest =>
    if rest.length < lenField (wordOfBytes b0 b1 b2 b3) then .error .truncated
    else
      match decodeCommand (wordOfBytes b0 b1 b2 b3) (rest.take (lenField (wordOfBytes b0 b1 b2 b3))) with
      | .error e => .error e
      | .ok i => .ok (i, rest.drop (lenField (wordOfBytes b0 b1 b2 b3)))
  | _ => .error .truncated

/-! ### Encoding -/

/-- OPC or MOPC of an instruction (R65, R66). -/
def Instr.opcode : Instr → Byte
  | .write _ => 0x01
  | .sum => 0x02
  | .reset => 0x03
  | .size => 0x04
  | .blockSize => 0x05
  | .marshal => 0x06
  | .unmarshal _ => 0x07
  | .keccakF _ => 0x80
  | .round _ _ => 0x81
  | .theta _ => 0x82
  | .rho _ => 0x83
  | .pi _ => 0x84
  | .chi _ => 0x85
  | .iota _ _ => 0x86
  | .absorbBlock _ => 0x88
  | .pad => 0x89
  | .squeeze _ => 0x8A

/-- A CMD word: LEN in [31:8], OPC in [7:0] (R61). -/
def cmdWord (opc : Byte) (len : Nat) : Word :=
  ((BitVec.ofNat 24 len).setWidth 32 <<< 8) ||| opc.setWidth 32

/-- The T bit of a target (R66). -/
def Target.bit : Target → BitVec 1
  | .a => 0
  | .s => 1

/-- A MICRO word: T in [13], RI in [12:8], MOPC in [7:0], the rest 0 (R66). -/
def microWord (mopc : Byte) (ri : BitVec 5) (t : Target) : Word :=
  (t.bit.setWidth 32 <<< 13) ||| (ri.setWidth 32 <<< 8) ||| mopc.setWidth 32

/-- The word of an instruction (R61, R65, R66). -/
def Instr.headWord : Instr → Word
  | .write p => cmdWord 0x01 p.length
  | .sum => cmdWord 0x02 0
  | .reset => cmdWord 0x03 0
  | .size => cmdWord 0x04 0
  | .blockSize => cmdWord 0x05 0
  | .marshal => cmdWord 0x06 0
  | .unmarshal p => cmdWord 0x07 p.length
  | .keccakF t => microWord 0x80 0 t
  | .round ri t => microWord 0x81 (BitVec.ofNat 5 ri.val) t
  | .theta t => microWord 0x82 0 t
  | .rho t => microWord 0x83 0 t
  | .pi t => microWord 0x84 0 t
  | .chi t => microWord 0x85 0 t
  | .iota ri t => microWord 0x86 (BitVec.ofNat 5 ri.val) t
  | .absorbBlock t => microWord 0x88 0 t
  | .pad => microWord 0x89 0 .a
  | .squeeze t => microWord 0x8A 0 t

/-- The bytes of an instruction: its word, least significant byte first (R45), then its payload (R70). -/
def encode (i : Instr) : List Byte := wordBytes i.headWord ++ i.payload

/-! ### The opcode table's numbering -/

/-- The 32-bit word whose low `nbits` bits are `w`'s; every bit above is 0. -/
def tableWord (nbits w : Nat) : Word := BitVec.ofNat 32 (w % 2 ^ nbits)

/-- The payload that follows a table word: LEN bytes of 0 after a CMD word, none after a MICRO word. -/
def tablePayload (w : Word) : List Byte :=
  if inMicroSpace w then [] else List.replicate (lenField w) 0

/-- What the decoder reads from an instruction whose bits are `w`, numbered as spec/opcode_table.json numbers
them, every bit above `nbits` being 0. -/
def decodeTableWord (nbits w : Nat) : Option Instr :=
  match decodeEither (tableWord nbits w) (tablePayload (tableWord nbits w)) with
  | .ok i => some i
  | .error _ => none

end Sys2Proof
end

