-- ==== Sys2Proof/Machine/State.lean ====
section
/-! DEFINITION. The state of one Keccak core instance (R20), the host's side of its ports (R60, R238), the
reasons a step can stop, and the state after reset (R35, R230). -/

namespace Sys2Proof.Machine

/-- PHASE (R26). -/
inductive Phase where
  | absorbing
  | squeezing
  deriving DecidableEq, Repr

/-- SEQ: the engine's current activity (R31). A position inside a command is the number of payload bytes
already taken (`payload`) or the response bytes still to be taken (`dout`). -/
inductive Seq where
  /-- IDLE: ready for a command word. -/
  | idle
  /-- A command word was accepted and `got` are its payload bytes so far (R62). -/
  | payload (word : Word) (got : List Byte)
  /-- The sequencer is about to perform the micro-operation of this MICRO word (R66). -/
  | micro (word : Word)
  /-- The response word is offered; `bytes` are the response payload that follows it (R63). -/
  | respond (word : Word) (bytes : List Byte)
  /-- The response word was taken; `bytes` are the response payload bytes not yet taken (R63). -/
  | dout (bytes : List Byte)
  deriving DecidableEq, Repr

/-- What the host does at the ports (R60, R238), in order. The model's own input, not state of the core: a
transfer on a channel is offered until the engine takes it. -/
inductive HostEvent where
  /-- Offer a word on the command channel. -/
  | cmdWord (w : Word)
  /-- Offer a byte on the command payload channel. -/
  | dinByte (b : Byte)
  /-- Be ready for one response word. -/
  | takeRsp
  /-- Be ready for one response payload byte. -/
  | takeDout
  /-- Drive rst_n low (R230). -/
  | rstLow
  /-- Drive rst_n high (R230). -/
  | rstHigh
  deriving DecidableEq, Repr

/-- One transfer from the core to the host (R60). -/
inductive Delivered where
  /-- A response word on the response channel. -/
  | word (w : Word)
  /-- A byte on the response payload channel. -/
  | byte (b : Byte)
  deriving DecidableEq, Repr

/-- Why the machine stops with a fault. -/
inductive Fault where
  /-- Raised by WRITE when BUF is not RATE bytes long or BUFLEN is not in 0..RATE-1: the byte would go to an
  address outside BUF (R25, R40, R204). Safe: no run from reset reaches such a state. -/
  | bufAddress
  deriving DecidableEq, Repr

/-- Why the machine refuses an instruction. -/
inductive Refusal where
  /-- Raised by `exec`'s arm of an instruction that has no meaning yet; no arm does. Safe. -/
  | notModelled (mnemonic : String)
  /-- Raised by ABSORB_BLOCK when its operand block is not RATE bytes long (R130, R204, U12). Safe: no run from
  reset reaches such a state. -/
  | blockLength
  /-- Raised by PAD and SUM when BUF is not RATE bytes long or BUFLEN is not in 0..RATE-1 (R131, R204, U12).
  Safe: no run from reset reaches such a state. -/
  | padLength
  /-- Raised by `step` when the sequencer holds a MICRO word that is no micro-operation: a reserved MOPC, a
  field that must be 0, or a round index above 23 (R66, U8, U12). Safe: the sequencer never holds one. -/
  | illFormedMicro (e : DecodeError)
  deriving DecidableEq, Repr

/-- The state. The first nine fields are R20's (`variant` is CFG); the next two are the operand and result
latches of the micro-operations (log 5); `rstN` is the rst_n port; `host` and `out` are the host's side of
the ports. -/
structure State where
  /-- A, the lane array (R21). -/
  a : Lanes
  /-- BUF, the block buffer, RATE bytes (R24). -/
  buf : List Byte
  /-- BUFLEN, 8 bits (R25). -/
  bufLen : BitVec 8
  /-- PHASE (R26). -/
  phase : Phase
  /-- ABSORBED, 64 bits (R27). -/
  absorbed : BitVec 64
  /-- CFG: its three fields are functions of VARIANT (R28). -/
  variant : Variant
  /-- S, the scratch lane array (R32). -/
  scratch : Lanes
  /-- SEQ (R31). -/
  seq : Seq
  /-- RND, 5 bits (R31). -/
  rnd : BitVec 5
  /-- The operand block of ABSORB_BLOCK (R130), RATE bytes, loaded by WRITE and by PAD. -/
  blk : List Byte
  /-- The bytes SQUEEZE returned last (R133). -/
  sqz : List Byte
  /-- The rst_n port: true is high (R230). -/
  rstN : Bool
  /-- What the host does next at the ports, first event first. -/
  host : List HostEvent
  /-- What the host has received, first transfer first (R239). -/
  out : List Delivered
  deriving DecidableEq, Repr

/-- RATE of this instance. -/
def State.rate (s : State) : Nat := s.variant.rate

/-- OUTLEN of this instance. -/
def State.outlen (s : State) : Nat := s.variant.outlen

/-- The state after reset of an instance of this VARIANT (R35, R230): A zero, BUFLEN 0, PHASE ABSORBING,
ABSORBED 0, SEQ IDLE, RND 0. BUF, S and the two latches are zero by DESIGN CHOICE (logs 2, 3, 5). -/
def State.resetOf (v : Variant) : State where
  a := Lanes.zero
  buf := List.replicate v.rate 0
  bufLen := 0
  phase := .absorbing
  absorbed := 0
  variant := v
  scratch := Lanes.zero
  seq := .idle
  rnd := 0
  blk := List.replicate v.rate 0
  sqz := []
  rstN := true
  host := []
  out := []

/-- The machine right after reset. -/
def State.reset : State := State.resetOf Config.variant

end Sys2Proof.Machine
end

