-- ==== Sys2Proof/Machine/Operands.lean ====
section
/-! DEFINITION. The operand forms: bit fields and rotation of lanes (R7, R9), the little-endian byte view STATEB
of a lane array (R41 to R43), byte-sequence slices (R11), and the lane array a T bit selects (R66). -/

namespace Sys2Proof.Machine

/-! ### Lanes as bits and bytes -/

/-- `ROL64(v, n)` for n in 0..63 (R9). -/
def rol64 (v : Lane) (n : Nat) : Lane := (v <<< n) ||| (v >>> (64 - n))

/-- Byte k of a lane: `v[8k+7:8k]` (R7). -/
def laneByte (v : Lane) (k : Nat) : Byte := v.extractLsb' (8 * k) 8

/-- The eight bytes of a 64-bit value, least significant first (R41, R180). -/
def leBytes (v : BitVec 64) : List Byte :=
  [laneByte v 0, laneByte v 1, laneByte v 2, laneByte v 3, laneByte v 4, laneByte v 5, laneByte v 6, laneByte v 7]

/-- `le64(s)`: the 64-bit value whose byte k is `s[k]` (R12). -/
def le64 (s : List Byte) : BitVec 64 :=
  s.foldr (fun b acc => (acc <<< 8) ||| b.setWidth 64) 0

/-! ### Byte sequences -/

/-- `s[i..j)` (R11). -/
def slice (s : List Byte) (i j : Nat) : List Byte := (s.take j).drop i

/-- `zeros(n)` (R11). -/
def zeros (n : Nat) : List Byte := List.replicate n 0

/-- Byte-wise XOR of two sequences of one length. -/
def xorBytes (s t : List Byte) : List Byte := List.zipWith (· ^^^ ·) s t

/-! ### The byte view of a lane array -/

/-- The linear lane index `i = x + 5*y` (R8). -/
def laneIndex (x y : Fin 5) : Nat := x.val + 5 * y.val

/-- The 40 bytes of the lanes of one row, `x = 0` first. -/
def rowBytes (r : Row) : List Byte :=
  leBytes r.x0 ++ (leBytes r.x1 ++ (leBytes r.x2 ++ (leBytes r.x3 ++ leBytes r.x4)))

/-- `bytes(A)`: the 200-byte STATEB view, lane index order `i = x + 5*y`, each lane little-endian (R41). -/
def stateBytes (A : Lanes) : List Byte :=
  rowBytes A.y0 ++ (rowBytes A.y1 ++ (rowBytes A.y2 ++ (rowBytes A.y3 ++ rowBytes A.y4)))

/-- `lanes(b)`: `A[x][y] = le64(b[8(x+5y) .. 8(x+5y)+8))` (R41). -/
def lanesOf (b : List Byte) : Lanes :=
  .ofFn fun x y => le64 (slice b (8 * laneIndex x y) (8 * laneIndex x y + 8))

/-- `MemRead(addr, n)`, for `addr + n <= 200` (R42). -/
def memRead (A : Lanes) (addr n : Nat) : List Byte := slice (stateBytes A) addr (addr + n)

/-- `MemWrite(addr, len(v), v)`, for `addr + len(v) <= 200` (R43). -/
def memWrite (A : Lanes) (addr : Nat) (v : List Byte) : Lanes :=
  lanesOf ((stateBytes A).take addr ++ v ++ (stateBytes A).drop (addr + v.length))

/-! ### The lane array of a micro-operation -/

/-- The lane array the T bit selects (R66). -/
def State.lanes (s : State) : Target → Lanes
  | .a => s.a
  | .s => s.scratch

/-- Write the lane array the T bit selects. -/
def State.withLanes (s : State) (t : Target) (v : Lanes) : State :=
  match t with
  | .a => { s with a := v }
  | .s => { s with scratch := v }

/-- `BUF[0..BUFLEN)`: the only meaningful part of BUF (R24). No rule reads the rest. -/
def State.bufUsed (s : State) : List Byte := s.buf.take s.bufLen.toNat

end Sys2Proof.Machine
end

