-- ==== Sys2Proof/Machine/Flags.lean ====
section
/-! DEFINITION. The codes the core computes. It has no condition flags (R29): what other cores report in flags it
reports in the STATUS of a response word (R63, R69), and its one flag, PHASE, has an encoding (R26, R180). -/

namespace Sys2Proof.Machine

/-- STATUS (R69). -/
inductive Status where
  /-- The command completed. -/
  | ok
  /-- UNMARSHAL rejected its snapshot (R202). -/
  | corruptState
  /-- The command word encodes no operation (R201). -/
  | illegalCommand
  /-- Reserved for the source's InvalidState; never produced (R203). -/
  | invalidState
  deriving DecidableEq, Repr

/-- The STATUS code (R69). -/
def statusCode : Status → Byte
  | .ok => 0x00
  | .corruptState => 0x01
  | .illegalCommand => 0x02
  | .invalidState => 0x03

/-- A RSP word: RLEN in [31:8], STATUS in [7:0] (R63). -/
def rspWord (st : Status) (len : Nat) : Word :=
  ((BitVec.ofNat 24 len).setWidth 32 <<< 8) ||| (statusCode st).setWidth 32

/-- The snapshot encoding of PHASE: ABSORBING = 0, SQUEEZING = 1 (R26, R180). -/
def phaseByte : Phase → Byte
  | .absorbing => 0x00
  | .squeezing => 0x01

/-- RND after the round `r`: the next index, and 0 after the 24th round (R31). -/
def nextRnd (r : Fin 24) : BitVec 5 := if r.val = 23 then 0 else BitVec.ofNat 5 (r.val + 1)

end Sys2Proof.Machine
end

