-- ==== Sys2Proof/Machine/Keccak.lean ====
section
/-! DEFINITION. The functions of the Permutation Engine and the Sponge Core on lane arrays and byte blocks: the
five step mappings, the round, Keccak-f[1600] (R100 to R111), block XOR, multi-rate padding and the squeeze
loop (R130 to R134). Each reads only its arguments (R12, R113). -/

namespace Sys2Proof.Machine

/-! ### Tables -/

/-- R by linear index `i = x + 5y` (R105). -/
def rotTable : List Nat :=
  [0, 1, 62, 28, 27, 36, 44, 6, 55, 20, 3, 10, 43, 25, 39, 41, 45, 15, 21, 8, 18, 2, 61, 56, 14]

/-- `R[x][y]` (R105). -/
def rot (x y : Fin 5) : Nat := rotTable.getD (laneIndex x y) 0

/-- The twelve rows of the table of R109: row `r` holds `RC[r]` and `RC[r + 12]`. -/
def rcRows : List (Lane × Lane) :=
  [(0x0000000000000001, 0x000000008000808B), (0x0000000000008082, 0x800000000000008B),
   (0x800000000000808A, 0x8000000000008089), (0x8000000080008000, 0x8000000000008003),
   (0x000000000000808B, 0x8000000000008002), (0x0000000080000001, 0x8000000000000080),
   (0x8000000080008081, 0x000000000000800A), (0x8000000000008009, 0x800000008000000A),
   (0x000000000000008A, 0x8000000080008081), (0x0000000000000088, 0x8000000000008080),
   (0x0000000080008009, 0x0000000080000001), (0x000000008000000A, 0x8000000080008008)]

/-- `RC[ri]` (R109). -/
def rc (ri : Fin 24) : Lane :=
  if ri.val < 12 then (rcRows.getD ri.val (0, 0)).1 else (rcRows.getD (ri.val - 12) (0, 0)).2

/-! ### How the tables are generated -/

/-- Multiply by x modulo x^8 + x^6 + x^5 + x^4 + 1 over GF(2) (R110). -/
def lfsrStep (p : BitVec 8) : BitVec 8 := if p.getLsbD 7 then (p <<< 1) ^^^ 0x71 else p <<< 1

/-- `x^t` modulo that polynomial (R110). -/
def lfsrPow : Nat → BitVec 8
  | 0 => 1
  | t + 1 => lfsrStep (lfsrPow t)

/-- `rc(t)`, the constant coefficient of `x^t` (R110). -/
def rcBit (t : Nat) : Bool := (lfsrPow t).getLsbD 0

/-- RC[ri] as R110 generates it: bit `2^j - 1` is `rc(j + 7*ri)`, j = 0..6. -/
def rcGenerated (ri : Nat) : Lane :=
  (List.range 7).foldl (fun v j => if rcBit (j + 7 * ri) then v ||| (1#64 <<< (2 ^ j - 1)) else v) 0

/-- The walk of R111: the positions visited from (x, y), the t-th with its offset. -/
def rotWalk : Nat → Nat → Fin 5 → Fin 5 → List ((Fin 5 × Fin 5) × Nat)
  | 0, _, _, _ => []
  | n + 1, t, x, y => ((x, y), (t + 1) * (t + 2) / 2 % 64) :: rotWalk n (t + 1) y (2 * x + 3 * y)

/-! ### The five steps -/

/-- The column parity `C[x]` of θ (R103). -/
def parity (T : Lanes) (x : Fin 5) : Lane :=
  T.get x 0 ^^^ T.get x 1 ^^^ T.get x 2 ^^^ T.get x 3 ^^^ T.get x 4

/-- θ (R103). -/
def thetaStep (T : Lanes) : Lanes :=
  let C := Row.ofFn (parity T)
  let D := Row.ofFn fun x => C.get (x + 4) ^^^ rol64 (C.get (x + 1)) 1
  .ofFn fun x y => T.get x y ^^^ D.get x

/-- ρ (R104). -/
def rhoStep (T : Lanes) : Lanes := .ofFn fun x y => rol64 (T.get x y) (rot x y)

/-- π, as the inverse reading R106 gives: `T'[x'][y']` comes from `T[(x' + 3*y') mod 5][x']`. -/
def piStep (T : Lanes) : Lanes := .ofFn fun x y => T.get (x + 3 * y) x

/-- χ (R107). -/
def chiStep (T : Lanes) : Lanes :=
  .ofFn fun x y => T.get x y ^^^ (~~~ T.get (x + 1) y &&& T.get (x + 2) y)

/-- ι (R108). -/
def iotaStep (ri : Fin 24) (T : Lanes) : Lanes :=
  .ofFn fun x y => if x = 0 ∧ y = 0 then T.get x y ^^^ rc ri else T.get x y

/-- ROUND: θ, ρ, π, χ, ι in that order (R102). -/
def roundStep (ri : Fin 24) (T : Lanes) : Lanes :=
  iotaStep ri (chiStep (piStep (rhoStep (thetaStep T))))

/-- The round indices 0..23 in increasing order (R101). -/
def roundIndices : List (Fin 24) := List.finRange 24

/-- KECCAK_F: the 24 rounds in order (R100, R101). Irreducible, so that no elaboration runs the 24 rounds. -/
@[irreducible] def keccakPerm (T : Lanes) : Lanes := roundIndices.foldl (fun T ri => roundStep ri T) T

/-! ### The sponge -/

/-- The block XOR of ABSORB_BLOCK: `MemWrite(0, n, MemRead(0, n) ^ blk)` with n = len(blk) (R43, R130). -/
def xorBlock (blk : List Byte) (T : Lanes) : Lanes :=
  memWrite T 0 (xorBytes (memRead T 0 blk.length) blk)

/-- ABSORB_BLOCK on a lane array (R130). -/
def absorbBlock (blk : List Byte) (T : Lanes) : Lanes := keccakPerm (xorBlock blk T)

/-- PAD of the n = len(buf) buffered bytes, n <= rate - 1 (R131, R132). -/
def padBlock (rate : Nat) (ds : Byte) (buf : List Byte) : List Byte :=
  let blk := buf ++ [ds] ++ zeros (rate - buf.length - 1)
  blk.set (rate - 1) (blk.getD (rate - 1) 0 ||| 0x80)

/-- The loop of SQUEEZE with `todo` output bytes still to give (R133, R134): the bytes and the lane array after
the last extraction. `fuel` bounds the extractions; `todo` of them always suffice. -/
def squeezeLoop (rate : Nat) : Nat → Nat → Lanes → List Byte × Lanes
  | 0, _, T => ([], T)
  | fuel + 1, todo, T =>
    let k := min rate todo
    if todo - k = 0 then (memRead T 0 k, T)
    else
      let r := squeezeLoop rate fuel (todo - k) (keccakPerm T)
      (memRead T 0 k ++ r.1, r.2)

/-- SQUEEZE (R133). -/
def squeezeOut (rate outlen : Nat) (T : Lanes) : List Byte × Lanes := squeezeLoop rate outlen outlen T

end Sys2Proof.Machine
end

