-- ==== Sys2Proof/Machine/Ops.lean ====
section
/-! DEFINITION. The named operations on the state that the meanings are written over: the response and error
entry (R63, R200, R206), the micro-operations, the buffer store of WRITE, the snapshot, RESET and hardware
reset, and the port signals. -/

namespace Sys2Proof.Machine

/-! ### Plain updates -/

/-- Set SEQ (R31). -/
def State.withSeq (s : State) (q : Seq) : State := { s with seq := q }

/-- Set RND (R31). -/
def State.withRnd (s : State) (r : BitVec 5) : State := { s with rnd := r }

/-- Load the operand block of ABSORB_BLOCK. -/
def State.loadBlk (s : State) (blk : List Byte) : State := { s with blk := blk }

/-- Move the host's script on. -/
def State.withHost (s : State) (h : List HostEvent) : State := { s with host := h }

/-- Record a transfer to the host (R239). -/
def State.deliver (s : State) (d : Delivered) : State := { s with out := s.out ++ [d] }

/-! ### Responses and errors -/

/-- `respond(st, p)`: end the command with this response (R63). -/
def State.respond (s : State) (st : Status) (p : List Byte) : State :=
  s.withSeq (.respond (rspWord st p.length) p)

/-- `raise E`, the core's one way to take an exception (R200, R206): it saves nothing, changes no mode, transfers
control nowhere, and ends the command with STATUS E and no payload. There is no return operation: after the
response the engine is idle (R207). -/
def State.raise (s : State) (e : Status) : State := s.respond e []

/-! ### Micro-operations -/

/-- Apply a step mapping to the target lane array. -/
def State.onLanes (s : State) (t : Target) (f : Lanes → Lanes) : State := s.withLanes t (f (s.lanes t))

/-- KECCAK_F on the target; RND returns to 0 (R100, R31). -/
def State.keccakOn (s : State) (t : Target) : State := (s.onLanes t keccakPerm).withRnd 0

/-- ROUND on the target; RND advances (R102, R31). -/
def State.roundOn (s : State) (ri : Fin 24) (t : Target) : State :=
  (s.onLanes t (roundStep ri)).withRnd (nextRnd ri)

/-- ABSORB_BLOCK of the operand block on the target (R130). -/
def State.absorbOn (s : State) (t : Target) : State := (s.onLanes t (xorBlock s.blk)).keccakOn t

/-- PAD of BUF[0..BUFLEN); the result becomes the operand block of ABSORB_BLOCK (R131). -/
def State.padOn (s : State) : State := s.loadBlk (padBlock s.rate s.variant.dsByte s.bufUsed)

/-- SQUEEZE of OUTLEN bytes from the target (R133). -/
def State.squeezeOn (s : State) (t : Target) : State :=
  { s.withLanes t (squeezeOut s.rate s.outlen (s.lanes t)).2 with
    sqz := (squeezeOut s.rate s.outlen (s.lanes t)).1 }

/-! ### The buffer -/

/-- BUF is RATE bytes long and BUFLEN is 0..RATE-1 (R24, R25): the well-formed input of PAD and WRITE (R204). -/
abbrev State.BufOk (s : State) : Prop := s.buf.length = s.rate ∧ s.bufLen.toNat < s.rate

/-- `BUF[BUFLEN] <- b`, and BUFLEN and ABSORBED count it (R150). -/
def State.storeByte (s : State) (b : Byte) : State :=
  { s with
    buf := s.buf.set s.bufLen.toNat b
    bufLen := s.bufLen + 1
    absorbed := s.absorbed + 1 }

/-- `ABSORB_BLOCK(A, BUF[0..RATE)); BUFLEN <- 0` (R150). -/
def State.absorbBuf (s : State) : State :=
  { (s.loadBlk (s.buf.take s.rate)).absorbOn .a with bufLen := 0 }

/-- The body of WRITE's loop for one payload byte (R150). -/
def State.writeByte (s : State) (b : Byte) : State :=
  if (s.storeByte b).bufLen.toNat = s.rate then (s.storeByte b).absorbBuf else s.storeByte b

/-- WRITE's loop over its payload (R150). -/
def State.writeBytes (s : State) (p : List Byte) : State := p.foldl State.writeByte s

/-! ### SUM -/

/-- `S <- A`: the scratch duplicate (R152, R32). -/
def State.duplicate (s : State) : State := s.withLanes .s s.a

/-- SUM up to its response: duplicate, PAD, ABSORB_BLOCK on S, SQUEEZE of S (R152). -/
def State.sumOn (s : State) : State := ((s.duplicate.padOn).absorbOn .s).squeezeOn .s

/-! ### Snapshots -/

/-- TAG: "KEC" and SNAP_VERSION (R180). -/
def snapTag : List Byte := [0x4B, 0x45, 0x43, Config.snapVersion]

/-- The configuration bytes of a snapshot (R180). -/
def cfgBytes (v : Variant) : List Byte := [v.rateByte, v.outlenByte, v.dsByte]

/-- The snapshot of the state (R180, R181). -/
def State.snapshot (s : State) : List Byte :=
  snapTag ++ cfgBytes s.variant ++ [phaseByte s.phase] ++ leBytes s.absorbed ++ stateBytes s.a ++ [s.bufLen]
    ++ s.bufUsed ++ zeros (s.rate - s.bufLen.toNat)

/-- SNAP_OK(p) for an instance of this VARIANT (R183). -/
def snapOk (v : Variant) (p : List Byte) : Bool :=
  decide (p.length = v.snapLen ∧ slice p 0 4 = snapTag ∧ slice p 4 7 = cfgBytes v
    ∧ p.getD 7 0 = phaseByte .absorbing ∧ (p.getD 216 0).toNat ≤ v.rate - 1)

/-- UNMARSHAL's writes for an accepted snapshot (R182). -/
def State.restore (s : State) (p : List Byte) : State :=
  { s with
    absorbed := le64 (slice p 8 16)
    a := lanesOf (slice p 16 216)
    bufLen := p.getD 216 0
    buf := slice p 217 (217 + (p.getD 216 0).toNat) ++ s.buf.drop (p.getD 216 0).toNat
    phase := .absorbing }

/-! ### Reset -/

/-- RESET's writes (R154), and RND, which R35 gives the same value after RESET as after hardware reset. -/
def State.clear (s : State) : State :=
  { s with a := Lanes.zero, bufLen := 0, phase := .absorbing, absorbed := 0, rnd := 0 }

/-- Hardware reset when rst_n returns high (R230): every piece of state has its reset value, CFG stays, and what
the host does next and has received is not the core's. -/
def State.hardwareReset (s : State) : State :=
  { State.resetOf s.variant with host := s.host, out := s.out }

/-! ### Port signals (R60, R230, R234) -/

/-- cmd_ready: the engine is idle and not held in reset (R234). -/
def State.cmdReady (s : State) : Bool :=
  match s.seq with
  | .idle => s.rstN
  | .payload _ _ | .micro _ | .respond _ _ | .dout _ => false

/-- din_ready: a command still lacks payload bytes (R62). -/
def State.dinReady (s : State) : Bool :=
  match s.seq with
  | .payload w got => s.rstN && decide (got.length < lenField w)
  | .idle | .micro _ | .respond _ _ | .dout _ => false

/-- rsp_valid: a response word is offered (R63). -/
def State.rspValid (s : State) : Bool :=
  match s.seq with
  | .respond _ _ => s.rstN
  | .idle | .payload _ _ | .micro _ | .dout _ => false

/-- dout_valid: a response payload byte is offered (R63). -/
def State.doutValid (s : State) : Bool :=
  match s.seq with
  | .dout (_ :: _) => s.rstN
  | .idle | .payload _ _ | .micro _ | .respond _ _ | .dout [] => false

end Sys2Proof.Machine
end

