-- ==== Sys2Proof/Machine/Commands.lean ====
section
/-! DEFINITION. The meanings of the incremental hash commands (R150 to R157). Each ends with one response. -/

namespace Sys2Proof.Machine

/-- WRITE (R150). -/
def execWrite (payload : List Byte) (s : State) : Host.Outcome State Fault Refusal :=
  if s.BufOk then .next ((s.writeBytes payload).respond .ok []) else .fault .bufAddress

/-- SUM (R152, R153). -/
def execSum (s : State) : Host.Outcome State Fault Refusal :=
  if s.BufOk then .next (s.sumOn.respond .ok s.sumOn.sqz) else .refused .padLength

/-- RESET (R154). -/
def execReset (s : State) : Host.Outcome State Fault Refusal := .next (s.clear.respond .ok [])

/-- SIZE (R155). -/
def execSize (s : State) : Host.Outcome State Fault Refusal := .next (s.respond .ok [s.variant.outlenByte])

/-- BLOCKSIZE (R156). -/
def execBlockSize (s : State) : Host.Outcome State Fault Refusal := .next (s.respond .ok [s.variant.rateByte])

end Sys2Proof.Machine
end

