-- ==== Sys2Proof/Machine/Permutation.lean ====
section
/-! DEFINITION. The meanings of the Permutation Engine's micro-operations (R100 to R108). Each is total: it raises
nothing and reads only its target, RC and R (R113). -/

namespace Sys2Proof.Machine

/-- KECCAK_F (R100). -/
def execKeccakF (t : Target) (s : State) : Host.Outcome State Fault Refusal := .next (s.keccakOn t)

/-- ROUND (R102). -/
def execRound (ri : Fin 24) (t : Target) (s : State) : Host.Outcome State Fault Refusal :=
  .next (s.roundOn ri t)

/-- THETA (R103). -/
def execTheta (t : Target) (s : State) : Host.Outcome State Fault Refusal := .next (s.onLanes t thetaStep)

/-- RHO (R104). -/
def execRho (t : Target) (s : State) : Host.Outcome State Fault Refusal := .next (s.onLanes t rhoStep)

/-- PI (R106). -/
def execPi (t : Target) (s : State) : Host.Outcome State Fault Refusal := .next (s.onLanes t piStep)

/-- CHI (R107). -/
def execChi (t : Target) (s : State) : Host.Outcome State Fault Refusal := .next (s.onLanes t chiStep)

/-- IOTA (R108). -/
def execIota (ri : Fin 24) (t : Target) (s : State) : Host.Outcome State Fault Refusal :=
  .next (s.onLanes t (iotaStep ri))

end Sys2Proof.Machine
end

