-- ==== Sys2Proof/Machine/Serialization.lean ====
section
/-! DEFINITION. The meanings of MARSHAL (R181) and UNMARSHAL (R182 to R184). -/

namespace Sys2Proof.Machine

/-- MARSHAL (R181). -/
def execMarshal (s : State) : Host.Outcome State Fault Refusal := .next (s.respond .ok s.snapshot)

/-- UNMARSHAL (R182): an accepted snapshot is restored, any other raises CORRUPT_STATE and changes nothing
else (R184). -/
def execUnmarshal (payload : List Byte) (s : State) : Host.Outcome State Fault Refusal :=
  if snapOk s.variant payload then .next ((s.restore payload).respond .ok []) else .next (s.raise .corruptState)

end Sys2Proof.Machine
end

