-- ==== Sys2Proof/Machine/Sponge.lean ====
section
/-! DEFINITION. The meanings of the Sponge Core's micro-operations (R130, R131, R133). Their operand block and
their result stand in the latches `blk` and `sqz` (log 5); an ill-formed input is refused (R204, U12). -/

namespace Sys2Proof.Machine

/-- ABSORB_BLOCK (R130). -/
def execAbsorbBlock (t : Target) (s : State) : Host.Outcome State Fault Refusal :=
  if s.blk.length = s.rate then .next (s.absorbOn t) else .refused .blockLength

/-- PAD (R131, R132). -/
def execPad (s : State) : Host.Outcome State Fault Refusal :=
  if s.BufOk then .next s.padOn else .refused .padLength

/-- SQUEEZE (R133, R134). -/
def execSqueeze (t : Target) (s : State) : Host.Outcome State Fault Refusal := .next (s.squeezeOn t)

end Sys2Proof.Machine
end

