-- ==== Sys2Proof/Machine/Dispatch.lean ====
section
/-! DEFINITION. The meaning of every instruction, one arm per constructor of `Instr`. -/

namespace Sys2Proof.Machine

def exec (i : Instr) (s : State) : Host.Outcome State Fault Refusal :=
  match i with
  | .write payload => Sys2Proof.Machine.execWrite payload s
  | .sum => Sys2Proof.Machine.execSum s
  | .reset => Sys2Proof.Machine.execReset s
  | .size => Sys2Proof.Machine.execSize s
  | .blockSize => Sys2Proof.Machine.execBlockSize s
  | .marshal => Sys2Proof.Machine.execMarshal s
  | .unmarshal payload => Sys2Proof.Machine.execUnmarshal payload s
  | .keccakF t => Sys2Proof.Machine.execKeccakF t s
  | .round ri t => Sys2Proof.Machine.execRound ri t s
  | .theta t => Sys2Proof.Machine.execTheta t s
  | .rho t => Sys2Proof.Machine.execRho t s
  | .pi t => Sys2Proof.Machine.execPi t s
  | .chi t => Sys2Proof.Machine.execChi t s
  | .iota ri t => Sys2Proof.Machine.execIota ri t s
  | .absorbBlock t => Sys2Proof.Machine.execAbsorbBlock t s
  | .pad => Sys2Proof.Machine.execPad s
  | .squeeze t => Sys2Proof.Machine.execSqueeze t s

end Sys2Proof.Machine
end

