-- ==== Sys2Proof/Machine/Fetch.lean ====
section
/-! DEFINITION. What the engine does next: one transfer on a channel (R60, R62, R63, R234, R236), a reset edge of
rst_n (R230), or the instruction that SEQ holds complete (R31, R70, R71). -/

namespace Sys2Proof.Machine

/-- The engine's next action. -/
inductive Action where
  /-- Perform this instruction on this state. -/
  | run (i : Instr) (s : State)
  /-- Go to this state: a transfer, a reset edge, an illegal command's response, or a wait. -/
  | goto (s : State)
  /-- Refuse. -/
  | refuse (r : Refusal)
  deriving DecidableEq, Repr

/-- Does the event drive rst_n? -/
def HostEvent.isRst : HostEvent → Bool
  | .rstLow | .rstHigh => true
  | .cmdWord _ | .dinByte _ | .takeRsp | .takeDout => false

/-- Does the event change rst_n from this level? Driving it to the level it has is no reset (R230). -/
def HostEvent.changesRst : HostEvent → Bool → Bool
  | .rstLow, level => level
  | .rstHigh, level => !level
  | .cmdWord _, _ | .dinByte _, _ | .takeRsp, _ | .takeDout, _ => false

/-- The host offers a transfer the engine does not take, and waits (R236). Only a change of rst_n gets it further: it
then gives up what it has not transferred (R230, R238). With no such change ahead nothing changes, and nothing is
dropped (R214, R236). -/
def State.hostWaits (s : State) : State :=
  match s.host.dropWhile (fun e => !e.changesRst s.rstN) with
  | [] => s
  | e :: rest => s.withHost (e :: rest)

/-- SEQ once a response word is taken: its payload bytes follow, or the engine is idle (R63, R207). -/
def afterWord : List Byte → Seq
  | [] => .idle
  | b :: rest => .dout (b :: rest)

/-- A transfer while SEQ is idle: only a command word is taken (R234). -/
def State.idleTransfer (s : State) : State :=
  match s.host with
  | .cmdWord w :: rest => (s.withSeq (.payload w [])).withHost rest
  | .dinByte _ :: _ | .takeRsp :: _ | .takeDout :: _ => s.hostWaits
  | .rstLow :: _ | .rstHigh :: _ | [] => s

/-- A transfer while a command lacks payload bytes: a payload byte is taken (R62); a command word offered now is
taken as payload, its bytes least significant first (R236, R45). -/
def State.payloadTransfer (s : State) (w : Word) (got : List Byte) : State :=
  match s.host with
  | .dinByte b :: rest => (s.withSeq (.payload w (got ++ [b]))).withHost rest
  | .cmdWord w' :: rest => s.withHost ((wordBytes w').map .dinByte ++ rest)
  | .takeRsp :: _ | .takeDout :: _ => s.hostWaits
  | .rstLow :: _ | .rstHigh :: _ | [] => s

/-- A transfer while a response word is offered: the word is taken (R63). -/
def State.rspTransfer (s : State) (w : Word) (bytes : List Byte) : State :=
  match s.host with
  | .takeRsp :: rest => ((s.withSeq (afterWord bytes)).withHost rest).deliver (.word w)
  | .cmdWord _ :: _ | .dinByte _ :: _ | .takeDout :: _ => s.hostWaits
  | .rstLow :: _ | .rstHigh :: _ | [] => s

/-- A transfer while response payload bytes are offered: the first is taken (R63). -/
def State.doutTransfer (s : State) (b : Byte) (bytes : List Byte) : State :=
  match s.host with
  | .takeDout :: rest => ((s.withSeq (afterWord bytes)).withHost rest).deliver (.byte b)
  | .cmdWord _ :: _ | .dinByte _ :: _ | .takeRsp :: _ => s.hostWaits
  | .rstLow :: _ | .rstHigh :: _ | [] => s

/-- A command whose payload is complete (R62): its instruction runs, or the decoder raises ILLEGAL_COMMAND before
any operation begins (R67, R68, R71, R201). -/
def State.runCommand (s : State) (w : Word) (got : List Byte) : Action :=
  match decodeCommand w got with
  | .ok i => .run i (s.withSeq .idle)
  | .error _ => .goto (s.raise .illegalCommand)

/-- A micro-operation the sequencer holds (R66). -/
def State.runMicro (s : State) (w : Word) : Action :=
  match decodeMicro w with
  | .ok i => .run i (s.withSeq .idle)
  | .error e => .refuse (.illFormedMicro e)

/-- The engine's own action, rst_n being high and not about to fall. -/
def State.engineAction (s : State) : Action :=
  match s.seq with
  | .idle => .goto s.idleTransfer
  | .payload w got => if lenField w ≤ got.length then s.runCommand w got else .goto (s.payloadTransfer w got)
  | .micro w => s.runMicro w
  | .respond w bytes => .goto (s.rspTransfer w bytes)
  | .dout (b :: bytes) => .goto (s.doutTransfer b bytes)
  | .dout [] => .goto (s.withSeq .idle)

/-- The next action. A reset edge comes before everything (R205, R230): rst_n low aborts the command in progress
and stops every transfer, rst_n high again leaves the reset state. -/
def State.nextAction (s : State) : Action :=
  match s.rstN, s.host with
  | true, .rstLow :: rest => .goto { s with rstN := false, host := rest }
  | true, .rstHigh :: rest => .goto (s.withHost rest)
  | true, _ => s.engineAction
  | false, .rstHigh :: rest => .goto (s.withHost rest).hardwareReset
  | false, .rstLow :: rest => .goto (s.withHost rest)
  | false, _ => .goto s.hostWaits

/-- `s` with a word where the engine takes its next instruction: a MICRO word at the sequencer, any other word as
a command accepted with its payload complete (bytes of 0); rst_n is high and not about to be driven (log 8). -/
def State.placeWord (s : State) (w : Word) : State :=
  { s with
    rstN := true
    host := s.host.dropWhile HostEvent.isRst
    seq := if inMicroSpace w then .micro w else .payload w (tablePayload w) }

end Sys2Proof.Machine
end

