-- ==== Sys2Proof/Machine/Step.lean ====
section
/-! DEFINITION. One step of the core. The engine's next action is `State.nextAction`'s (Machine/Fetch.lean); an
instruction it runs has the meaning `exec` gives it. -/

namespace Sys2Proof.Machine

/-- One step: a transfer, a reset edge, a wait, or one instruction, which is one atomic transition (R15, R47). -/
def step (s : State) : Host.Outcome State Fault Refusal :=
  match s.nextAction with
  | .run i s' => exec i s'
  | .goto s' => .next s'
  | .refuse r => .refused r

/-- `s` with the table's word where `step` takes its next instruction (log 8). -/
def State.withFetchWord (s : State) (nbits w : Nat) : State := s.placeWord (tableWord nbits w)

end Sys2Proof.Machine
end

