-- ==== Sys2Proof/Machine/Script.lean ====
section
/-! DEFINITION. Command scripts: the host events of a command and of taking its response (R60, R62, R63), the
pseudo-instructions (R73), the RLEN of each command (R64), and the written form of instructions (R72, R74). -/

namespace Sys2Proof.Machine

/-! ### Scripts as host events -/

/-- A raw command word and its payload, `.cmd <word> <payload>` of R72, as port events. -/
def rawEvents (w : Word) (payload : List Byte) : List HostEvent := .cmdWord w :: payload.map .dinByte

/-- A command as port events (R62). -/
def commandEvents (i : Instr) : List HostEvent := rawEvents i.headWord i.payload

/-- Take a response with `rlen` payload bytes (R63). -/
def takeEvents (rlen : Nat) : List HostEvent := .takeRsp :: List.replicate rlen .takeDout

/-- RLEN of a command that ends with STATUS OK (R64); a micro-operation gives no response. -/
def okRlen (v : Variant) : Instr → Nat
  | .write _ => 0
  | .sum => v.outlen
  | .reset => 0
  | .size => 1
  | .blockSize => 1
  | .marshal => v.snapLen
  | .unmarshal _ => 0
  | .keccakF _ | .round _ _ | .theta _ | .rho _ | .pi _ | .chi _ | .iota _ _ => 0
  | .absorbBlock _ | .pad | .squeeze _ => 0

/-! ### Pseudo-instructions (R73) -/

/-- `HASH <payload>`. -/
def hashScript (payload : List Byte) : List Instr := [.reset, .write payload, .sum]

/-- `FILL <byte>, <n>`. -/
def fillScript (b : Byte) (n : Nat) : List Instr := [.write (List.replicate n b)]

/-- `WRITE <payload>` of any length (R73): WRITEs of at most `chunk` bytes, in order; `fuel` bounds their number.
DESIGN CHOICE (log 21): a payload of a multiple of `chunk` bytes, two or more chunks, ends with a full chunk, and no
empty WRITE follows it. -/
def writeChunks (chunk : Nat) : Nat → List Byte → List Instr
  | 0, _ => []
  | fuel + 1, p =>
    if p.length ≤ chunk then [.write p] else .write (p.take chunk) :: writeChunks chunk fuel (p.drop chunk)

/-- `WRITE <payload>` with chunks of 2^24-1 bytes. -/
def longWriteScript (p : List Byte) : List Instr := writeChunks (lenBound - 1) (p.length + 1) p

/-- `SAVE <name>`: the response payload is what the host keeps under the name. -/
def saveScript : List Instr := [.marshal]

/-- `RESTORE <name>` of a saved payload. -/
def restoreScript (saved : List Byte) : List Instr := [.unmarshal saved]

/-! ### Written form -/

/-- The two hex digits of a byte. -/
def hexByte (b : Byte) : String :=
  let digits := ['0', '1', '2', '3', '4', '5', '6', '7', '8', '9', 'A', 'B', 'C', 'D', 'E', 'F']
  String.ofList [digits.getD (b.toNat / 16) '0', digits.getD (b.toNat % 16) '0']

/-- A payload in the `hex:` form of R72; the empty one as an empty text. -/
def payloadText (p : List Byte) : String :=
  if p.isEmpty then "\"\"" else p.foldl (fun acc b => acc ++ hexByte b) "hex:"

/-- The suffix of a micro-operation's target (R74). -/
def targetText : Target → String
  | .a => ".A"
  | .s => ".S"

/-- The written form of an instruction (R72, R74). -/
def scriptText : Instr → String
  | .write p => "WRITE " ++ payloadText p
  | .sum => "SUM"
  | .reset => "RESET"
  | .size => "SIZE"
  | .blockSize => "BLOCKSIZE"
  | .marshal => "MARSHAL"
  | .unmarshal p => "UNMARSHAL " ++ payloadText p
  | .keccakF t => "KECCAK_F" ++ targetText t
  | .round ri t => "ROUND" ++ targetText t ++ " " ++ toString ri.val
  | .theta t => "THETA" ++ targetText t
  | .rho t => "RHO" ++ targetText t
  | .pi t => "PI" ++ targetText t
  | .chi t => "CHI" ++ targetText t
  | .iota ri t => "IOTA" ++ targetText t ++ " " ++ toString ri.val
  | .absorbBlock t => "ABSORB_BLOCK" ++ targetText t
  | .pad => "PAD"
  | .squeeze t => "SQUEEZE" ++ targetText t

end Sys2Proof.Machine
end

