-- ==== Sys2Proof/Safety.lean ====
section
/-! DEFINITION. The terms claims are stated in: the observable state (R239), the invariants of the core, replies
and runs of instructions, and the whole-message digest (R136). -/

namespace Sys2Proof.Machine

/-! ### What can be observed -/

/-- The architectural state of R239, with CFG: A, BUF[0..BUFLEN), BUFLEN, PHASE, ABSORBED. -/
structure Arch where
  a : Lanes
  bufUsed : List Byte
  bufLen : BitVec 8
  phase : Phase
  absorbed : BitVec 64
  variant : Variant
  deriving DecidableEq, Repr

/-- The architectural state of a machine state. -/
def State.arch (s : State) : Arch where
  a := s.a
  bufUsed := s.bufUsed
  bufLen := s.bufLen
  phase := s.phase
  absorbed := s.absorbed
  variant := s.variant

/-- The response an executed command offers: its word and its payload (R63). -/
def State.reply (s : State) : Option (Word × List Byte) :=
  match s.seq with
  | .respond w p => some (w, p)
  | .idle | .payload _ _ | .micro _ | .dout _ => none

/-- The T bit [13] of a MICRO word, in its place (R66). -/
def targetBit : Target → Word
  | .a => 0x00000000
  | .s => 0x00002000

/-! ### Invariants -/

/-- SEQ is a stage of a command: no more payload than LEN (R62), a response word that says how many payload bytes
follow, and none unless STATUS is OK (R63), with a STATUS this hardware produces (R69, R203), and no empty rest of a
payload. -/
def SeqOk : Seq → Prop
  | .idle => True
  | .payload w got => got.length ≤ lenField w
  | .micro _ => True
  | .respond w p => lenField w = p.length ∧ (opcField w ≠ 0x00 → p = []) ∧ opcField w ≤ 0x02
  | .dout p => p ≠ []

/-- What holds of the state at every moment: the shape of BUF and the range of BUFLEN (R24, R25), PHASE always
ABSORBING (R26), RND a round index (R31), an operand block of RATE bytes (R130), SEQ well formed. -/
structure State.Inv (s : State) : Prop where
  bufOk : s.BufOk
  phase_eq : s.phase = .absorbing
  rnd_lt : s.rnd.toNat < 24
  blk_length : s.blk.length = s.rate
  seq_ok : SeqOk s.seq

/-- No micro-operation is left to the sequencer and RND is 0: what the host finds whenever it can look (R31). -/
def State.Settled (s : State) : Prop := s.rnd = 0 ∧ ∀ w, s.seq ≠ .micro w

/-- The engine may act: rst_n is high and the host is not about to drive it (R230). -/
def State.Running (s : State) : Prop := s.rstN = true ∧ ∀ e ∈ s.host.head?, e.isRst = false

/-! ### Snapshots -/

/-- SNAP_OK as the table of R183 has it: length, version, configuration, phase and buffer length. -/
structure SnapGood (v : Variant) (p : List Byte) : Prop where
  length : p.length = 217 + v.rate
  version : p.take 4 = [0x4B, 0x45, 0x43, 0x01]
  rate : p.getD 4 0 = BitVec.ofNat 8 v.rate
  outlen : p.getD 5 0 = BitVec.ofNat 8 v.outlen
  dsByte : p.getD 6 0 = 0x01
  phase : p.getD 7 0 = 0x00
  bufLen : (p.getD 216 0).toNat ≤ v.rate - 1

/-! ### Runs of instructions -/

/-- The instructions of a list, one after the other, up to the first fault or refusal. -/
def execAll : List Instr → State → Host.Outcome State Fault Refusal
  | [], s => .next s
  | i :: is, s =>
    match exec i s with
    | .next t => execAll is t
    | .fault f => .fault f
    | .refused r => .refused r

/-- The replies of a list of commands, up to the first fault or refusal. -/
def replies : List Instr → State → List (Option (Word × List Byte))
  | [], _ => []
  | i :: is, s =>
    match exec i s with
    | .next t => t.reply :: replies is t
    | .fault _ => []
    | .refused _ => []

/-- Is the instruction a WRITE or a SUM? -/
def isWriteOrSum : Instr → Bool
  | .write _ | .sum => true
  | .reset | .size | .blockSize | .marshal | .unmarshal _ => false
  | .keccakF _ | .round _ _ | .theta _ | .rho _ | .pi _ | .chi _ | .iota _ _ => false
  | .absorbBlock _ | .pad | .squeeze _ => false

/-! ### The whole message (R136) -/

/-- Absorb the first `k` blocks of RATE bytes of a message. -/
def absorbBlocks (rate : Nat) : Nat → List Byte → Lanes → Lanes
  | 0, _, T => T
  | k + 1, M, T => absorbBlocks rate k (M.drop rate) (absorbBlock (M.take rate) T)

/-- The number of full blocks of a message. -/
def fullBlocks (rate : Nat) (M : List Byte) : Nat := M.length / rate

/-- What follows the full blocks of a message. -/
def lastBytes (rate : Nat) (M : List Byte) : List Byte := M.drop (rate * fullBlocks rate M)

/-- The digest of a message as R136 gives it. -/
def messageDigest (v : Variant) (M : List Byte) : List Byte :=
  (squeezeOut v.rate v.outlen
    (absorbBlock (padBlock v.rate v.dsByte (lastBytes v.rate M))
      (absorbBlocks v.rate (fullBlocks v.rate M) M Lanes.zero))).1

end Sys2Proof.Machine
end

