-- ==== Sys2Proof/Certificates/Slice0/Obligations.lean ====
section
/-! DEFINITION. The statements for the provers. Each docstring names the rules of spec/ it formalises. A premise
`BufOk`, `Inv` or `Settled` is an invariant of the machine, itself stated (StepKeepsInvariant,
StepKeepsSettled). -/

open Sys2Proof Sys2Proof.Machine

/-! ### Encoding -/

/-- R61, R65, R66, R70: decoding the encoding of a well-formed instruction gives it back, with every operand and
whatever bytes follow; a micro-operation's word is the sequencer's. -/
def Obligations.DecodeOfEncode : Prop :=
  ∀ i : Instr, i.wf = true →
    decodeEither i.headWord i.payload = .ok i
      ∧ (i.hostIssuable = true → ∀ rest, decode (encode i ++ rest) = .ok (i, rest))
      ∧ (i.hostIssuable = false → decodeMicro i.headWord = .ok i)

/-- R61, R65, R66: each word has one meaning; what decodes to an instruction is its encoding. -/
def Obligations.EncodeOfDecode : Prop :=
  ∀ (w : Word) (p : List Byte) (i : Instr),
    (decodeCommand w p = .ok i → i.headWord = w ∧ i.payload = p ∧ i.wf = true ∧ i.hostIssuable = true)
      ∧ (decodeMicro w = .ok i → i.headWord = w ∧ i.hostIssuable = false)

/-- Decoding is total, with its three checks in order; the row is told by its operation code (R71, marked derived
there: "Decoding is total"). -/
def Obligations.CommandDecodingIsTotal : Prop :=
  ∀ (w : Word) (p : List Byte), p.length = lenField w →
    if opcField w < 0x01 ∨ 0x07 < opcField w then decodeCommand w p = .error .reservedOpcode
    else if 0x02 ≤ opcField w ∧ opcField w ≤ 0x06 ∧ lenField w ≠ 0 then
      decodeCommand w p = .error .lengthNotZero
    else ∃ i, decodeCommand w p = .ok i ∧ i.opcode = opcField w ∧ i.hostIssuable = true ∧ i.payload = p

/-- R65, R66: some of the words the spec writes out decode to the instructions they stand for. -/
def Obligations.WrittenOutWordsDecode : Prop :=
  decodeCommand 0x00000001 [] = .ok (.write [])
    ∧ decodeCommand 0x00000301 [0x61, 0x62, 0x63] = .ok (.write [0x61, 0x62, 0x63])
    ∧ decodeCommand 0x00000002 [] = .ok .sum
    ∧ decodeCommand 0x00000003 [] = .ok .reset
    ∧ decodeCommand 0x00000004 [] = .ok .size
    ∧ decodeCommand 0x00000005 [] = .ok .blockSize
    ∧ decodeCommand 0x00000006 [] = .ok .marshal
    ∧ lenField 0x00016107 = 353 ∧ lenField 0x00012107 = 289
    ∧ decodeMicro 0x00002080 = .ok (.keccakF .s)
    ∧ decodeMicro 0x00001781 = .ok (.round 23 .a)
    ∧ decodeMicro 0x00000089 = .ok .pad
    ∧ decodeMicro 0x0000208A = .ok (.squeeze .s)

/-! ### The step -/

/-- R62, R66, R70: a step runs exactly the instruction that SEQ holds complete, on the state with SEQ idle; and
so it does on a word placed by `withFetchWord`. That a command is one step, and where a word is placed, are the
model's form (logs 8, 11). -/
def Obligations.StepRunsDecodedInstruction : Prop :=
  ∀ (s : State) (i : Instr),
    (s.Running → ∀ w got, s.seq = .payload w got → decodeCommand w got = .ok i →
        step s = exec i (s.withSeq .idle))
      ∧ (s.Running → ∀ w, s.seq = .micro w → decodeMicro w = .ok i → step s = exec i (s.withSeq .idle))
      ∧ (∀ w, decodeTableWord 32 w = some i →
          step (s.withFetchWord 32 w) = exec i ((s.withFetchWord 32 w).withSeq .idle))

/-- R60, R234: the port signals while rst_n is high; nothing is delivered without its valid signal. A
delivery is read off the host's record, the model's own field (log 13). -/
def Obligations.PortSignals : Prop :=
  ∀ s : State, s.rstN = true →
    (s.cmdReady = true ↔ s.seq = .idle)
      ∧ (s.dinReady = true ↔ ∃ w got, s.seq = .payload w got ∧ got.length < lenField w)
      ∧ (s.rspValid = true ↔ ∃ w p, s.seq = .respond w p)
      ∧ (s.doutValid = true ↔ ∃ b p, s.seq = .dout (b :: p))
      ∧ (∀ t w, step s = .next t → t.out = s.out ++ [.word w] → s.rspValid = true)
      ∧ (∀ t b, step s = .next t → t.out = s.out ++ [.byte b] → s.doutValid = true)

/-- R60, R62, R63, R207, R234: the four transfers, each taken when its channel's ready or valid signal of the core is
high. The host's script and record are the model's form (logs 10, 13). -/
def Obligations.ChannelTransfers : Prop :=
  ∀ (s : State) (rest : List HostEvent), s.rstN = true →
    (∀ w, s.seq = .idle → s.host = .cmdWord w :: rest →
        s.cmdReady = true ∧ step s = .next { s with seq := .payload w [], host := rest })
      ∧ (∀ w got b, s.seq = .payload w got → got.length < lenField w → s.host = .dinByte b :: rest →
        s.dinReady = true ∧ step s = .next { s with seq := .payload w (got ++ [b]), host := rest })
      ∧ (∀ w p, s.seq = .respond w p → s.host = .takeRsp :: rest →
        s.rspValid = true ∧ step s
          = .next { s with seq := if p = [] then .idle else .dout p, host := rest, out := s.out ++ [.word w] })
      ∧ (∀ b p, s.seq = .dout (b :: p) → s.host = .takeDout :: rest →
        s.doutValid = true ∧ step s
          = .next { s with seq := if p = [] then .idle else .dout p, host := rest, out := s.out ++ [.byte b] })

/-- R214, R234, R236: with nothing it can transfer and no fall of rst_n ahead the engine waits, changing nothing: with no
host event at all, the signal of the one channel it is at being high, and in front of a command word offered while a
response is not yet taken, cmd_ready being low. A script without events as a host that stalls is the model's form
(log 10). -/
def Obligations.EngineWaits : Prop :=
  ∀ s : State, s.rstN = true →
    (s.host = [] →
        (s.seq = .idle → s.cmdReady = true ∧ step s = .next s)
          ∧ (∀ w got, s.seq = .payload w got → got.length < lenField w → s.dinReady = true ∧ step s = .next s)
          ∧ (∀ w p, s.seq = .respond w p → s.rspValid = true ∧ step s = .next s)
          ∧ (∀ b p, s.seq = .dout (b :: p) → s.doutValid = true ∧ step s = .next s))
      ∧ (∀ w rest, s.host = .cmdWord w :: rest → (∀ e ∈ rest, e ≠ .rstLow) →
        ((∃ w' p, s.seq = .respond w' p) ∨ (∃ b p, s.seq = .dout (b :: p))) →
          s.cmdReady = false ∧ step s = .next s)

/-- R236: with rst_n high, an offer the engine cannot take is never dropped and changes nothing, whatever follows it but
a fall of rst_n (a bare rise, with rst_n high already, is no reset), so only hardware reset recovers the framing; with
a fall ahead the host goes on with it. That a stuck host's script moves on to the fall is the model's form (log 10). -/
def Obligations.OnlyResetEndsAWait : Prop :=
  ∀ (s : State) (e : HostEvent) (rest : List HostEvent), s.rstN = true → s.host = e :: rest → e.isRst = false →
    ((s.seq = .idle ∧ ∀ w, e ≠ .cmdWord w)
      ∨ (∃ w got, s.seq = .payload w got ∧ got.length < lenField w ∧ (e = .takeRsp ∨ e = .takeDout))
      ∨ (∃ w p, s.seq = .respond w p ∧ e ≠ .takeRsp)
      ∨ (∃ b p, s.seq = .dout (b :: p) ∧ e ≠ .takeDout)) →
      ((∀ e' ∈ rest, e' ≠ .rstLow) → step s = .next s)
        ∧ (∀ pre post, rest = pre ++ .rstLow :: post → (∀ e' ∈ pre, e' ≠ .rstLow) →
          step s = .next (s.withHost (.rstLow :: post)))

/-- R236, R45: a command word sent before the payload is complete is taken as payload, least significant byte
first. How a word is split into bytes on separate ports is the model's choice (log 9). -/
def Obligations.EarlyCommandWordIsPayload : Prop :=
  ∀ (s : State) (w w' : Word) (got : List Byte) (rest : List HostEvent), s.rstN = true →
    s.seq = .payload w got → got.length < lenField w → s.host = .cmdWord w' :: rest →
      step s = .next (s.withHost (.dinByte (w'.extractLsb' 0 8) :: .dinByte (w'.extractLsb' 8 8)
        :: .dinByte (w'.extractLsb' 16 8) :: .dinByte (w'.extractLsb' 24 8) :: rest))

/-- R67, R68, R201: a command word with a reserved OPC, or with a LEN where none is allowed, has its LEN payload
bytes consumed and is answered ILLEGAL_COMMAND with no payload, and nothing else changes; WRITE and UNMARSHAL accept
every LEN. -/
def Obligations.IllegalCommandsAreAnswered : Prop :=
  (∀ (s : State) (w : Word) (got : List Byte), s.rstN = true → s.seq = .payload w got →
    ((opcField w < 0x01 ∨ 0x07 < opcField w) ∨ (0x02 ≤ opcField w ∧ opcField w ≤ 0x06 ∧ lenField w ≠ 0)) →
      (∀ b rest, got.length < lenField w → s.host = .dinByte b :: rest →
          step s = .next { s with seq := .payload w (got ++ [b]), host := rest })
        ∧ (got.length = lenField w → s.Running → step s = .next { s with seq := .respond 0x00000002 [] }))
    ∧ (∀ (w : Word) (p : List Byte), p.length = lenField w →
      (opcField w = 0x01 → decodeCommand w p = .ok (.write p))
        ∧ (opcField w = 0x07 → decodeCommand w p = .ok (.unmarshal p)))

/-- R230: when rst_n falls no response is given; while it is low no port is ready or valid, nothing is delivered, and
only its rise ends that; when it rises every piece of state the spec gives a reset value has it, CFG stays, and the
engine is ready for a command word. What the state holds between is left open (U4). -/
def Obligations.HardwareReset : Prop :=
  ∀ (s : State),
    (∀ rest, s.rstN = true → s.host = .rstLow :: rest →
        ∃ t, step s = .next t ∧ t.rstN = false ∧ t.out = s.out ∧ t.variant = s.variant ∧ t.host = rest)
      ∧ (s.rstN = false → s.cmdReady = false ∧ s.dinReady = false ∧ s.rspValid = false ∧ s.doutValid = false
        ∧ ∃ t, step s = .next t ∧ t.out = s.out ∧ t.variant = s.variant
          ∧ (t.rstN = false ∨ ∃ rest, s.host = .rstHigh :: rest))
      ∧ (∀ rest, s.rstN = false → s.host = .rstHigh :: rest →
        ∃ t, step s = .next t ∧ t.a = Lanes.zero ∧ t.bufLen = 0 ∧ t.phase = .absorbing ∧ t.absorbed = 0
          ∧ t.variant = s.variant ∧ t.seq = .idle ∧ t.rnd = 0 ∧ t.rstN = true ∧ t.cmdReady = true
          ∧ t.host = rest ∧ t.out = s.out)

/-- R35: the state after reset, for both variants, one of which is `State.reset`'s. BUF, S and the latches, whose
values are the model's choice (logs 2, 3, 5), are not in it. -/
def Obligations.ResetState : Prop :=
  (∃ v, State.reset = State.resetOf v) ∧ ∀ v : Variant,
    (∀ x y, (State.resetOf v).a.get x y = 0) ∧ (State.resetOf v).bufLen = 0
      ∧ (State.resetOf v).phase = .absorbing ∧ (State.resetOf v).absorbed = 0 ∧ (State.resetOf v).variant = v
      ∧ (State.resetOf v).seq = .idle ∧ (State.resetOf v).rnd = 0

/-- The invariants hold after reset, for both variants (R24, R25, R26, R31); the operand latch is the model's (log
5). -/
def Obligations.ResetMeetsInvariant : Prop :=
  State.reset.Inv ∧ State.reset.Settled ∧ ∀ v : Variant, (State.resetOf v).Inv ∧ (State.resetOf v).Settled

/-- R24, R25, R26, R31, R63, R69, R203: every step, of any kind, from any state that meets the invariant keeps it;
so it does while rst_n is low, where the model keeps the state as it is (log 12). The operand latch is
the model's (log 5). -/
def Obligations.StepKeepsInvariant : Prop :=
  ∀ s t : State, s.Inv → step s = .next t → t.Inv

/-- R31: RND is 0 and the sequencer holds no micro-operation whenever the host can look, and every step keeps
that; so it does while rst_n is low (log 12). -/
def Obligations.StepKeepsSettled : Prop :=
  ∀ s t : State, s.Settled → step s = .next t → t.Settled

/-- R204, R157, R200: from a state that meets the invariants no step faults or refuses. -/
def Obligations.StepNeverStops : Prop :=
  ∀ s : State, s.Inv → s.Settled → ∃ t, step s = .next t

/-- R28: no step changes CFG. That the host's record (the model's own field `out`) survives hardware reset and only
grows, by at most one transfer a step, is the model's form, no rule of the spec (log 13; one transfer a step, log
17). -/
def Obligations.ConfigurationAndRecord : Prop :=
  ∀ s t : State, step s = .next t →
    t.variant = s.variant ∧ (t.out = s.out ∨ ∃ d, t.out = s.out ++ [d])

/-- R20, R48, R214: the observable state changes only when a WRITE, a RESET or an UNMARSHAL runs, or when
hardware reset is released. That it stays while rst_n falls and is low is the model's choice (log 12; U4). -/
def Obligations.OnlyThreeCommandsAndResetChangeState : Prop :=
  ∀ s t : State, s.Inv → s.Settled → step s = .next t → t.arch ≠ s.arch →
    (s.rstN = false ∧ ∃ rest, s.host = .rstHigh :: rest)
      ∨ (∃ w got, s.seq = .payload w got ∧ lenField w ≤ got.length
          ∧ (decodeCommand w got = .ok (.write got) ∨ decodeCommand w got = .ok .reset
            ∨ decodeCommand w got = .ok (.unmarshal got)))

/-- R62, R63, R70, R234: through the ports, a command word, its payload and the taking of its response have
exactly the effect of the one atomic command, and leave the engine idle in front of what the host does next. The script, the
record and the one step a command takes are the model's form (logs 10, 11, 13). -/
def Obligations.TransactionIsTheCommand : Prop :=
  ∀ (s u : State) (i : Instr) (w : Word) (p : List Byte) (rest : List HostEvent),
    i.wf = true → i.hostIssuable = true → s.rstN = true → s.seq = .idle →
    s.host = commandEvents i ++ takeEvents p.length ++ rest →
    exec i s = .next u → u.reply = some (w, p) →
      ∃ k, core.run k s
        = .next { u with seq := .idle, host := rest, out := s.out ++ .word w :: p.map .byte }

/-- R62, R67, R68, R70, R206, R207: through the ports, an illegal command word and its payload change nothing but
the record of the response, and leave the engine idle and framed. The script and the record are the model's form
(logs 10, 13). -/
def Obligations.IllegalTransaction : Prop :=
  ∀ (s : State) (w : Word) (p : List Byte) (e : DecodeError) (rest : List HostEvent),
    p.length = lenField w → decodeCommand w p = .error e → s.rstN = true → s.seq = .idle →
    s.host = rawEvents w p ++ takeEvents 0 ++ rest →
      ∃ k, core.run k s = .next { s with host := rest, out := s.out ++ [.word 0x00000002] }

/-! ### The incremental hash commands -/

/-- R150: WRITE of any payload. Of BUF[0..BUFLEN) followed by the payload, every full block is absorbed at once,
in order, and what is left is buffered; ABSORBED counts the payload; the response is OK with no payload.
BUF beyond BUFLEN, RND and the operand latch apart, nothing else changes. -/
def Obligations.WriteAbsorbsFullBlocks : Prop :=
  ∀ (s : State) (p : List Byte), s.BufOk →
    (Instr.write p).headWord = BitVec.ofNat 32 (p.length * 256 + 0x01) ∧
    ∃ t, exec (.write p) s = .next t ∧ t.BufOk
      ∧ t.a = absorbBlocks s.rate (fullBlocks s.rate (s.bufUsed ++ p)) (s.bufUsed ++ p) s.a
      ∧ t.bufUsed = lastBytes s.rate (s.bufUsed ++ p)
      ∧ t.bufLen.toNat = (s.bufLen.toNat + p.length) % s.rate
      ∧ t.absorbed = s.absorbed + BitVec.ofNat 64 p.length
      ∧ t.seq = .respond 0x00000000 []
      ∧ t.phase = s.phase ∧ t.variant = s.variant ∧ t.scratch = s.scratch ∧ t.sqz = s.sqz
      ∧ t.rstN = s.rstN ∧ t.host = s.host ∧ t.out = s.out
      ∧ (s.bufLen.toNat + p.length < s.rate → t.a = s.a ∧ t.rnd = s.rnd ∧ t.blk = s.blk)

/-- Any chunking of a payload gives exactly the state of one WRITE of the whole (R151, marked derived there). -/
def Obligations.ChunkingLaw : Prop :=
  ∀ (s : State) (c : List Byte) (cs : List (List Byte)), s.BufOk →
    ∃ t, exec (.write (c ++ cs.flatten)) s = .next t ∧ execAll ((c :: cs).map Instr.write) s = .next t

/-- R27 (marked derived there): while ABSORBED does not wrap, ABSORBED mod RATE = BUFLEN is kept by WRITE. -/
def Obligations.AbsorbedCountsBuffered : Prop :=
  ∀ (s : State) (p : List Byte), s.BufOk → s.absorbed.toNat % s.rate = s.bufLen.toNat →
    s.absorbed.toNat + p.length < 2 ^ 64 →
      ∃ t, exec (.write p) s = .next t ∧ t.absorbed.toNat % t.rate = t.bufLen.toNat

/-- R152: SUM (word 0x00000002) answers the first OUTLEN bytes of A with the padded buffer absorbed; it is computed on a duplicate:
A, BUF, BUFLEN, PHASE, ABSORBED and CFG stay. -/
def Obligations.SumReturnsDigest : Prop :=
  ∀ s : State, s.BufOk → Instr.sum.headWord = 0x00000002 ∧
    ∃ t, exec .sum s = .next t
      ∧ t.seq = .respond (BitVec.ofNat 32 (s.outlen * 256))
          ((stateBytes (absorbBlock (padBlock s.rate 0x01 s.bufUsed) s.a)).take s.outlen)
      ∧ t.a = s.a ∧ t.buf = s.buf ∧ t.bufLen = s.bufLen ∧ t.phase = s.phase ∧ t.absorbed = s.absorbed
      ∧ t.variant = s.variant ∧ t.rstN = s.rstN ∧ t.host = s.host ∧ t.out = s.out

/-- R153: SUM twice gives the same response, and `WRITE X; SUM; WRITE Y; SUM` ends with the digest of X ++ Y. -/
def Obligations.SumDoesNotDisturb : Prop :=
  ∀ (s : State) (x y : List Byte), s.BufOk →
    (∃ t u, exec .sum s = .next t ∧ exec .sum t = .next u ∧ u.reply = t.reply
        ∧ t.arch = s.arch ∧ t.buf = s.buf)
      ∧ (∃ r, (replies [.write x, .sum, .write y, .sum] s).getLast? = some r
        ∧ (replies [.write (x ++ y), .sum] s).getLast? = some r)

/-- R152, R66: SUM is its micro-operations in order on the duplicate of A: PAD, ABSORB_BLOCK.S, SQUEEZE.S; its
response is what SQUEEZE returned. The latches that carry the block and the result are the model's choice (log 5). -/
def Obligations.SumIsItsMicroOperations : Prop :=
  ∀ s : State, s.BufOk →
    ∃ t, execAll [.pad, .absorbBlock .s, .squeeze .s] { s with scratch := s.a } = .next t
      ∧ exec .sum s = .next { t with seq := .respond (BitVec.ofNat 32 (t.sqz.length * 256)) t.sqz }

/-- After RESET, WRITEs of any chunks of a message and SUM give the message's digest as the sponge defines it on the
whole message (R136, marked derived there). -/
def Obligations.WholeMessageDigest : Prop :=
  ∀ (s : State) (chunks : List (List Byte)), s.buf.length = s.rate →
    ∃ t u, execAll (.reset :: chunks.map Instr.write) s = .next t ∧ exec .sum t = .next u
      ∧ u.reply = some (BitVec.ofNat 32 (s.outlen * 256), messageDigest s.variant chunks.flatten)

/-- R154: RESET (word 0x00000003) answers OK and clears A, BUFLEN, PHASE and ABSORBED; CFG stays. With R231 (marked
derived there) the architectural state is that after hardware reset. RND is 0: R35 gives it, R154 does not list it
(log 19). BUF and S have no specified
value after it (R35), so of them only BUF's length is stated; all else stays. -/
def Obligations.ResetCommand : Prop :=
  ∀ s : State, Instr.reset.headWord = 0x00000003 ∧ ∃ t, exec .reset s = .next t
    ∧ t.arch = s.hardwareReset.arch
    ∧ t.a = Lanes.zero ∧ t.bufLen = 0 ∧ t.phase = .absorbing ∧ t.absorbed = 0 ∧ t.variant = s.variant
    ∧ t.seq = .respond 0x00000000 []
    ∧ t.buf.length = s.buf.length ∧ t.rnd = 0 ∧ t.blk = s.blk ∧ t.sqz = s.sqz
    ∧ t.rstN = s.rstN ∧ t.host = s.host ∧ t.out = s.out

/-- R155, R156: SIZE (word 0x00000004) and BLOCKSIZE (word 0x00000005) answer OUTLEN and RATE in one byte; nothing else changes. -/
def Obligations.SizeAndBlockSize : Prop :=
  ∀ s : State, Instr.size.headWord = 0x00000004 ∧ Instr.blockSize.headWord = 0x00000005
      ∧ exec .size s = .next (s.withSeq (.respond 0x00000100
        [match s.variant with | .keccak256 => 0x20 | .keccak512 => 0x40]))
      ∧ exec .blockSize s = .next (s.withSeq (.respond 0x00000100
        [match s.variant with | .keccak256 => 0x88 | .keccak512 => 0x48]))

/-- R157, R200, R63, R64: in every state with a well-formed buffer every command runs to a next state and one
response; its word gives the payload's length; its STATUS is OK with the RLEN of R64, or, for UNMARSHAL only,
CORRUPT_STATE with no payload; and the buffer stays well formed. -/
def Obligations.EveryCommandResponds : Prop :=
  ∀ (s : State) (i : Instr), s.BufOk → i.hostIssuable = true →
    ∃ t w p, exec i s = .next t ∧ t.BufOk ∧ t.reply = some (w, p) ∧ lenField w = p.length
      ∧ ((opcField w = 0x00 ∧ p.length = okRlen s.variant i)
        ∨ (opcField w = 0x01 ∧ p = [] ∧ ∃ q, i = .unmarshal q))

/-- R48: SUM, SIZE, BLOCKSIZE and MARSHAL change nothing observable and are idempotent. -/
def Obligations.QueriesAreIdempotent : Prop :=
  ∀ (s : State) (i : Instr), s.BufOk → i ∈ [Instr.sum, .size, .blockSize, .marshal] →
    ∃ t u, exec i s = .next t ∧ exec i t = .next u ∧ u.reply = t.reply ∧ t.arch = s.arch ∧ u.arch = s.arch

/-- R24, R32, R113: no command's response or observable effect depends on BUF beyond BUFLEN, on S, on RND, on the
latches or on what the ports hold: two states with one observable state answer and end alike. -/
def Obligations.HiddenStateStaysHidden : Prop :=
  ∀ (s r : State) (i : Instr), s.BufOk → r.BufOk → s.arch = r.arch → i.hostIssuable = true →
    ∃ s' r', exec i s = .next s' ∧ exec i r = .next r' ∧ s'.reply = r'.reply ∧ s'.arch = r'.arch
      ∧ s'.BufOk ∧ r'.BufOk

/-! ### Serialization -/

/-- R180, R181: MARSHAL (word 0x00000006) answers the snapshot, field by field, and changes nothing else. The PHASE byte is read from
PHASE, which is always ABSORBING (log 7). -/
def Obligations.MarshalLayout : Prop :=
  ∀ s : State, s.BufOk → s.phase = .absorbing → Instr.marshal.headWord = 0x00000006 ∧
    ∃ p, exec .marshal s = .next { s with seq := .respond (BitVec.ofNat 32 ((217 + s.rate) * 256)) p }
      ∧ p.length = 217 + s.rate
      ∧ p.take 8 = [0x4B, 0x45, 0x43, 0x01, BitVec.ofNat 8 s.rate, BitVec.ofNat 8 s.outlen, 0x01, 0x00]
      ∧ (∀ k, k < 8 → p.getD (8 + k) 0 = s.absorbed.extractLsb' (8 * k) 8)
      ∧ (p.drop 16).take 200 = stateBytes s.a
      ∧ p.getD 216 0 = s.bufLen
      ∧ p.drop 217 = s.bufUsed ++ List.replicate (s.rate - s.bufLen.toNat) 0

/-- R182, R183, R184: a snapshot that passes the table of R183 is restored field by field and answered OK, CFG and
all else staying; any other is answered CORRUPT_STATE with no payload and changes nothing. -/
def Obligations.UnmarshalRestoresOrRejects : Prop :=
  ∀ (s : State) (p : List Byte), (Instr.unmarshal p).headWord = BitVec.ofNat 32 (p.length * 256 + 0x07)
    ∧ (SnapGood s.variant p →
      ∃ t, exec (.unmarshal p) s = .next t ∧ t.seq = .respond 0x00000000 []
        ∧ (∀ k, k < 8 → t.absorbed.extractLsb' (8 * k) 8 = p.getD (8 + k) 0)
        ∧ stateBytes t.a = (p.drop 16).take 200
        ∧ t.bufLen = p.getD 216 0 ∧ t.bufUsed = (p.drop 217).take (p.getD 216 0).toNat
        ∧ t.phase = .absorbing ∧ t.variant = s.variant
        ∧ t.scratch = s.scratch ∧ t.rnd = s.rnd ∧ t.blk = s.blk ∧ t.sqz = s.sqz
        ∧ t.rstN = s.rstN ∧ t.host = s.host ∧ t.out = s.out
        ∧ (s.buf.length = s.rate → t.buf.length = s.rate))
    ∧ (¬ SnapGood s.variant p → exec (.unmarshal p) s = .next { s with seq := .respond 0x00000001 [] })

/-- A snapshot taken by MARSHAL and restored on any instance of the same CFG gives that instance the same observable
state, and the same responses to every sequence of WRITE and SUM (R185, marked derived there). -/
def Obligations.RoundTripLaw : Prop :=
  ∀ (h r : State), h.BufOk → h.phase = .absorbing → r.BufOk → r.variant = h.variant →
    ∃ m w p t, exec .marshal h = .next m ∧ m.reply = some (w, p) ∧ exec (.unmarshal p) r = .next t
      ∧ t.reply = some (0x00000000, []) ∧ t.arch = h.arch
      ∧ ∀ cs : List Instr, (∀ c ∈ cs, isWriteOrSum c = true) →
          replies cs t = replies cs h ∧ (replies cs t).length = cs.length

/-! ### The Permutation Engine -/

/-- R100, R101: KECCAK_F is the 24 rounds in index order, and leaves RND 0; all else but the target stays. -/
def Obligations.KeccakFIsItsRounds : Prop :=
  ∀ (s : State) (t : Target), (Instr.keccakF t).headWord = (0x00000080 ||| targetBit t) ∧
    ∃ u, exec (.keccakF t) s = .next u
      ∧ execAll ((List.finRange 24).map (Instr.round · t)) s = .next u
      ∧ u = { s.withLanes t (u.lanes t) with rnd := 0 }

/-- R102: ROUND is θ, ρ, π, χ, ι in this order; all else but the target and RND stays. -/
def Obligations.RoundIsItsSteps : Prop :=
  ∀ (s : State) (ri : Fin 24) (t : Target),
    (Instr.round ri t).headWord = (0x00000081 ||| BitVec.ofNat 32 (ri.val * 256) ||| targetBit t) ∧
    ∃ u v, exec (.round ri t) s = .next u
      ∧ execAll [.theta t, .rho t, .pi t, .chi t, .iota ri t] s = .next v
      ∧ u.lanes t = v.lanes t ∧ u = { s.withLanes t (u.lanes t) with rnd := u.rnd }

/-- R103: θ XORs into each lane the parities of the two adjacent columns. -/
def Obligations.ThetaXorsColumnParities : Prop :=
  ∀ (s : State) (t : Target), (Instr.theta t).headWord = (0x00000082 ||| targetBit t) ∧
    let col := fun x => (s.lanes t).get x 0 ^^^ (s.lanes t).get x 1 ^^^ (s.lanes t).get x 2
      ^^^ (s.lanes t).get x 3 ^^^ (s.lanes t).get x 4
    ∃ u, exec (.theta t) s = .next u ∧ u = s.withLanes t (u.lanes t)
      ∧ ∀ x y, (u.lanes t).get x y = (s.lanes t).get x y ^^^ (col (x - 1) ^^^ (col (x + 1)).rotateLeft 1)

/-- R104: ρ moves bit j of each lane to bit (j + R[x][y]) mod 64. -/
def Obligations.RhoRotatesLanes : Prop :=
  ∀ (s : State) (t : Target), (Instr.rho t).headWord = (0x00000083 ||| targetBit t) ∧
    ∃ u, exec (.rho t) s = .next u ∧ u = s.withLanes t (u.lanes t)
      ∧ ∀ (x y : Fin 5) (j : Nat), j < 64 →
          ((u.lanes t).get x y).getLsbD ((j + rot x y) % 64) = ((s.lanes t).get x y).getLsbD j

/-- R106: π moves lane (x, y) to (y, 2x + 3y mod 5). -/
def Obligations.PiRelocatesLanes : Prop :=
  ∀ (s : State) (t : Target), (Instr.pi t).headWord = (0x00000084 ||| targetBit t) ∧
    ∃ u, exec (.pi t) s = .next u ∧ u = s.withLanes t (u.lanes t)
      ∧ ∀ x y : Fin 5, (u.lanes t).get y (2 * x + 3 * y) = (s.lanes t).get x y

/-- R107: χ XORs into each bit the AND of the next lane's complement and the lane after it. -/
def Obligations.ChiCombinesRows : Prop :=
  ∀ (s : State) (t : Target), (Instr.chi t).headWord = (0x00000085 ||| targetBit t) ∧
    ∃ u, exec (.chi t) s = .next u ∧ u = s.withLanes t (u.lanes t)
      ∧ ∀ (x y : Fin 5) (j : Nat), j < 64 →
          ((u.lanes t).get x y).getLsbD j
            = (((s.lanes t).get x y).getLsbD j
              ^^ (!((s.lanes t).get (x + 1) y).getLsbD j && ((s.lanes t).get (x + 2) y).getLsbD j))

/-- R108: ι XORs RC[ri] into lane (0,0) and changes no other lane; twice with one index it restores its input. -/
def Obligations.IotaXorsRoundConstant : Prop :=
  ∀ (s : State) (ri : Fin 24) (t : Target),
    (Instr.iota ri t).headWord = (0x00000086 ||| BitVec.ofNat 32 (ri.val * 256) ||| targetBit t) ∧
    ∃ u, exec (.iota ri t) s = .next u ∧ u = s.withLanes t (u.lanes t)
      ∧ (u.lanes t).get 0 0 = (s.lanes t).get 0 0 ^^^ rc ri
      ∧ (∀ x y : Fin 5, ¬ (x = 0 ∧ y = 0) → (u.lanes t).get x y = (s.lanes t).get x y)
      ∧ exec (.iota ri t) u = .next s

/-- R109, R110: the round-constant table, RC[r] beside RC[r + 12], and that it is what the LFSR generates. -/
def Obligations.RoundConstantsAreGenerated : Prop :=
  (List.finRange 12).map (fun r => (rc ⟨r.val, by omega⟩, rc ⟨r.val + 12, by omega⟩)) =
      [(0x0000000000000001, 0x000000008000808B), (0x0000000000008082, 0x800000000000008B),
       (0x800000000000808A, 0x8000000000008089), (0x8000000080008000, 0x8000000000008003),
       (0x000000000000808B, 0x8000000000008002), (0x0000000080000001, 0x8000000000000080),
       (0x8000000080008081, 0x000000000000800A), (0x8000000000008009, 0x800000008000000A),
       (0x000000000000008A, 0x8000000080008081), (0x0000000000000088, 0x8000000000008080),
       (0x0000000080008009, 0x0000000080000001), (0x000000008000000A, 0x8000000080008008)]
    ∧ ∀ ri : Fin 24, rc ri = rcGenerated ri.val

/-- R105, R111: the rotation-offset table, row y = 0 first; the walk visits every position but (0,0) once and gives
the table there. -/
def Obligations.RotationOffsetsAreGenerated : Prop :=
  (List.finRange 5).map (fun y => (List.finRange 5).map (rot · y)) =
      [[0, 1, 62, 28, 27], [36, 44, 6, 55, 20], [3, 10, 43, 25, 39], [41, 45, 15, 21, 8], [18, 2, 61, 56, 14]]
    ∧ (∀ e ∈ rotWalk 24 0 1 0, rot e.1.1 e.1.2 = e.2)
    ∧ (∀ x y : Fin 5, (x, y) ≠ (0, 0) → ((rotWalk 24 0 1 0).map Prod.fst).count (x, y) = 1)

/-! ### The Sponge Core -/

/-- As R130 has it, ABSORB_BLOCK XORs the block into the first RATE bytes of the target's byte view, leaves the
capacity bytes, and permutes; RND ends 0 and all else stays. That its operand block stands in the latch `blk` is the
model's choice (log 5). -/
def Obligations.AbsorbBlockXorsAndPermutes : Prop :=
  ∀ (s : State) (t : Target), s.blk.length = s.rate → (Instr.absorbBlock t).headWord = (0x00000088 ||| targetBit t) ∧
    ∃ u X, exec (.absorbBlock t) s = .next u
      ∧ (∀ j, j < s.rate →
          (stateBytes X).getD j 0 = (stateBytes (s.lanes t)).getD j 0 ^^^ s.blk.getD j 0)
      ∧ (stateBytes X).drop s.rate = (stateBytes (s.lanes t)).drop s.rate
      ∧ u.lanes t = keccakPerm X
      ∧ u = { s.withLanes t (u.lanes t) with rnd := 0 }

/-- As R131 and R132 have it, PAD gives one block of RATE bytes: the n buffered bytes, then the domain byte 0x01 and
a last byte with bit 0x80, which for n = RATE-1 are one byte 0x81. That PAD writes the block to the latch `blk` is the
model's choice (log 5): R131 has it write nothing; all else stays. -/
def Obligations.PadGivesOneBlock : Prop :=
  ∀ s : State, s.BufOk → Instr.pad.headWord = 0x00000089 ∧
    ∃ b, exec .pad s = .next { s with blk := b } ∧ b.length = s.rate
      ∧ b.take s.bufLen.toNat = s.bufUsed
      ∧ (s.bufLen.toNat + 1 = s.rate → b.getD (s.rate - 1) 0 = 0x81)
      ∧ (s.bufLen.toNat + 1 < s.rate → b.getD s.bufLen.toNat 0 = 0x01 ∧ b.getD (s.rate - 1) 0 = 0x80
          ∧ ∀ j, s.bufLen.toNat < j → j < s.rate - 1 → b.getD j 0 = 0x00)

/-- R133: SQUEEZE returns the first OUTLEN bytes of the target, with one extraction and no KECCAK_F; the target
and all else stay but the latch `sqz`, where the model keeps the result by its own choice (log 5). That it runs on a
target not past the absorb phase is the model's choice too (log 6). -/
def Obligations.SqueezeExtractsOnce : Prop :=
  ∀ (s : State) (t : Target), (Instr.squeeze t).headWord = (0x0000008A ||| targetBit t) ∧
    exec (.squeeze t) s = .next { s with sqz := (stateBytes (s.lanes t)).take s.outlen }

/-- R133, R134: the general squeeze, for any rate 1..199 and any output length: within one rate it is the first
bytes; beyond, RATE bytes and then the squeeze of the re-permuted array. -/
def Obligations.SqueezeLoopIsGeneral : Prop :=
  ∀ (rate outlen : Nat) (T : Lanes), 1 ≤ rate → rate ≤ 199 → 1 ≤ outlen →
    (squeezeOut rate outlen T).1.length = outlen
      ∧ (outlen ≤ rate → squeezeOut rate outlen T = ((stateBytes T).take outlen, T))
      ∧ (rate < outlen → squeezeOut rate outlen T
          = ((stateBytes T).take rate ++ (squeezeOut rate (outlen - rate) (keccakPerm T)).1,
            (squeezeOut rate (outlen - rate) (keccakPerm T)).2))

/-- R204 ("should refuse rather than produce a value"), U8, U12, log 14: an ill-formed input of a micro-operation is refused, a store outside BUF faults, and a MICRO
word that is no micro-operation is refused; each by its own name. -/
def Obligations.IllFormedInputsAreRefused : Prop :=
  ∀ (s : State) (t : Target) (p : List Byte),
    (s.blk.length ≠ s.rate → exec (.absorbBlock t) s = .refused .blockLength)
      ∧ (¬ s.BufOk → exec .pad s = .refused .padLength ∧ exec .sum s = .refused .padLength
          ∧ exec (.write p) s = .fault .bufAddress)
      ∧ (∀ w e, s.Running → s.seq = .micro w → decodeMicro w = .error e →
          step s = .refused (.illFormedMicro e))

/-! ### Byte views -/

/-- R41: `lanes` and `bytes` are inverse, and byte 8i + k of the view is byte k of lane i = x + 5y. -/
def Obligations.ByteViewsAreInverse : Prop :=
  (∀ A : Lanes, lanesOf (stateBytes A) = A)
    ∧ (∀ b : List Byte, b.length = 200 → stateBytes (lanesOf b) = b)
    ∧ (∀ (A : Lanes) (x y : Fin 5) (k : Nat), k < 8 →
        (stateBytes A).getD (8 * (x.val + 5 * y.val) + k) 0 = (A.get x y).extractLsb' (8 * k) 8)

/-- R42, R43: a write of STATEB replaces exactly its bytes, and a read gives the bytes that stand there. -/
def Obligations.StateByteAccess : Prop :=
  ∀ (A : Lanes) (addr : Nat) (v : List Byte), addr + v.length ≤ 200 →
    memRead (memWrite A addr v) addr v.length = v
      ∧ (∀ j, j < 200 → j < addr ∨ addr + v.length ≤ j →
          (stateBytes (memWrite A addr v)).getD j 0 = (stateBytes A).getD j 0)
      ∧ (∀ j, j < v.length → (memRead A addr v.length).getD j 0 = (stateBytes A).getD (addr + j) 0)
end

