-- ==== Sys2Proof/Laws/Bytes.lean ====
section
/-! SUPPORT. What the lane accessors, the byte view and the padding give: one lemma per function, cited instead of
unfolding it. -/

namespace Sys2Proof

theorem Variant.rate_pos (v : Variant) : 0 < v.rate := by cases v <;> decide

theorem Variant.rate_lt (v : Variant) : v.rate < 200 := by cases v <;> decide

theorem Variant.outlen_le_rate (v : Variant) : v.outlen ≤ v.rate := by cases v <;> decide

@[simp] theorem Row.get_ofFn (f : Fin 5 → Lane) (x : Fin 5) : (Row.ofFn f).get x = f x := by
  fin_cases x <;> rfl

@[simp] theorem Lanes.get_ofFn (f : Fin 5 → Fin 5 → Lane) (x y : Fin 5) : (Lanes.ofFn f).get x y = f x y := by
  fin_cases y <;> fin_cases x <;> rfl

@[simp] theorem Lanes.get_zero (x y : Fin 5) : Lanes.zero.get x y = 0 := Lanes.get_ofFn _ x y

/-- A lane array is its 25 lanes. -/
theorem Lanes.ext_get {A B : Lanes} (h : ∀ x y, A.get x y = B.get x y) : A = B := by
  obtain ⟨⟨_, _, _, _, _⟩, ⟨_, _, _, _, _⟩, ⟨_, _, _, _, _⟩, ⟨_, _, _, _, _⟩, ⟨_, _, _, _, _⟩⟩ := A
  obtain ⟨⟨_, _, _, _, _⟩, ⟨_, _, _, _, _⟩, ⟨_, _, _, _, _⟩, ⟨_, _, _, _, _⟩, ⟨_, _, _, _, _⟩⟩ := B
  have h' (x y : Fin 5) := h x y
  simp only [Lanes.get] at h'
  congr 2 <;> first
    | exact h' 0 0 | exact h' 1 0 | exact h' 2 0 | exact h' 3 0 | exact h' 4 0
    | exact h' 0 1 | exact h' 1 1 | exact h' 2 1 | exact h' 3 1 | exact h' 4 1
    | exact h' 0 2 | exact h' 1 2 | exact h' 2 2 | exact h' 3 2 | exact h' 4 2
    | exact h' 0 3 | exact h' 1 3 | exact h' 2 3 | exact h' 3 3 | exact h' 4 3
    | exact h' 0 4 | exact h' 1 4 | exact h' 2 4 | exact h' 3 4 | exact h' 4 4

namespace Machine

@[simp] theorem leBytes_length (v : BitVec 64) : (leBytes v).length = 8 := rfl

@[simp] theorem zeros_length (n : Nat) : (zeros n).length = n := List.length_replicate

@[simp] theorem xorBytes_length (s t : List Byte) : (xorBytes s t).length = min s.length t.length :=
  List.length_zipWith

theorem slice_length (s : List Byte) (i j : Nat) : (slice s i j).length = min j s.length - i := by
  simp [slice]

/-- Loading what was stored little-endian gives the value back (R41). -/
@[simp] theorem le64_leBytes (v : BitVec 64) : le64 (leBytes v) = v := by
  apply BitVec.eq_of_getLsbD_eq
  intro i hi
  simp only [le64, leBytes, laneByte, List.foldr]
  simp [hi]
  interval_cases i <;> simp

/-- Storing what was loaded little-endian from eight bytes gives the bytes back (R41). -/
theorem leBytes_le64 {s : List Byte} (h : s.length = 8) : leBytes (le64 s) = s := by
  match s, h with
  | [b0, b1, b2, b3, b4, b5, b6, b7], _ =>
    simp only [leBytes, List.cons.injEq, and_true, laneByte]
    refine ⟨?_, ?_, ?_, ?_, ?_, ?_, ?_, ?_⟩ <;>
    · apply BitVec.eq_of_getLsbD_eq
      intro i hi
      simp only [le64, List.foldr]
      simp [hi]
      interval_cases i <;> simp

@[simp] theorem rowBytes_length (r : Row) : (rowBytes r).length = 40 := by simp [rowBytes]

@[simp] theorem stateBytes_length (A : Lanes) : (stateBytes A).length = 200 := by simp [stateBytes]

theorem memRead_length (A : Lanes) {addr n : Nat} (h : addr + n ≤ 200) : (memRead A addr n).length = n := by
  simp [memRead, slice_length]; omega

/-- PAD gives exactly one block of RATE bytes (R132). -/
theorem padBlock_length {rate : Nat} (ds : Byte) {buf : List Byte} (h : buf.length < rate) :
    (padBlock rate ds buf).length = rate := by
  simp [padBlock]; omega

/-- Output within one rate needs one extraction and no KECCAK_F (R133). -/
theorem squeezeOut_short {rate outlen : Nat} (h0 : 0 < outlen) (h : outlen ≤ rate) (T : Lanes) :
    squeezeOut rate outlen T = (memRead T 0 outlen, T) := by
  obtain ⟨n, rfl⟩ : ∃ n, outlen = n + 1 := ⟨outlen - 1, by omega⟩
  simp [squeezeOut, squeezeLoop, Nat.min_eq_right h]

/-- Both variants squeeze once (R6, R133). -/
theorem squeezeOut_variant (v : Variant) (T : Lanes) :
    squeezeOut v.rate v.outlen T = (memRead T 0 v.outlen, T) := by
  cases v <;> exact squeezeOut_short (by decide) (by decide) T

end Machine

end Sys2Proof
end

