-- ==== Sys2Proof/Laws/State.lean ====
section
/-! SUPPORT. The small lemmas of the state operations: one per field per operation, so that no later proof unfolds
a record update. -/

namespace Sys2Proof.Machine

variable (s : State)

/-! ### withSeq -/

@[simp] theorem State.withSeq_a (q : Seq) : (s.withSeq q).a = s.a := rfl
@[simp] theorem State.withSeq_buf (q : Seq) : (s.withSeq q).buf = s.buf := rfl
@[simp] theorem State.withSeq_bufLen (q : Seq) : (s.withSeq q).bufLen = s.bufLen := rfl
@[simp] theorem State.withSeq_phase (q : Seq) : (s.withSeq q).phase = s.phase := rfl
@[simp] theorem State.withSeq_absorbed (q : Seq) : (s.withSeq q).absorbed = s.absorbed := rfl
@[simp] theorem State.withSeq_variant (q : Seq) : (s.withSeq q).variant = s.variant := rfl
@[simp] theorem State.withSeq_scratch (q : Seq) : (s.withSeq q).scratch = s.scratch := rfl
@[simp] theorem State.withSeq_seq (q : Seq) : (s.withSeq q).seq = q := rfl
@[simp] theorem State.withSeq_rnd (q : Seq) : (s.withSeq q).rnd = s.rnd := rfl
@[simp] theorem State.withSeq_blk (q : Seq) : (s.withSeq q).blk = s.blk := rfl
@[simp] theorem State.withSeq_sqz (q : Seq) : (s.withSeq q).sqz = s.sqz := rfl
@[simp] theorem State.withSeq_rstN (q : Seq) : (s.withSeq q).rstN = s.rstN := rfl
@[simp] theorem State.withSeq_host (q : Seq) : (s.withSeq q).host = s.host := rfl
@[simp] theorem State.withSeq_out (q : Seq) : (s.withSeq q).out = s.out := rfl
@[simp] theorem State.withSeq_rate (q : Seq) : (s.withSeq q).rate = s.rate := rfl
@[simp] theorem State.withSeq_outlen (q : Seq) : (s.withSeq q).outlen = s.outlen := rfl
@[simp] theorem State.withSeq_bufUsed (q : Seq) : (s.withSeq q).bufUsed = s.bufUsed := rfl
@[simp] theorem State.withSeq_lanes (q : Seq) (u : Target) : (s.withSeq q).lanes u = s.lanes u := by cases u <;> rfl

/-! ### withRnd -/

@[simp] theorem State.withRnd_a (r : BitVec 5) : (s.withRnd r).a = s.a := rfl
@[simp] theorem State.withRnd_buf (r : BitVec 5) : (s.withRnd r).buf = s.buf := rfl
@[simp] theorem State.withRnd_bufLen (r : BitVec 5) : (s.withRnd r).bufLen = s.bufLen := rfl
@[simp] theorem State.withRnd_phase (r : BitVec 5) : (s.withRnd r).phase = s.phase := rfl
@[simp] theorem State.withRnd_absorbed (r : BitVec 5) : (s.withRnd r).absorbed = s.absorbed := rfl
@[simp] theorem State.withRnd_variant (r : BitVec 5) : (s.withRnd r).variant = s.variant := rfl
@[simp] theorem State.withRnd_scratch (r : BitVec 5) : (s.withRnd r).scratch = s.scratch := rfl
@[simp] theorem State.withRnd_seq (r : BitVec 5) : (s.withRnd r).seq = s.seq := rfl
@[simp] theorem State.withRnd_rnd (r : BitVec 5) : (s.withRnd r).rnd = r := rfl
@[simp] theorem State.withRnd_blk (r : BitVec 5) : (s.withRnd r).blk = s.blk := rfl
@[simp] theorem State.withRnd_sqz (r : BitVec 5) : (s.withRnd r).sqz = s.sqz := rfl
@[simp] theorem State.withRnd_rstN (r : BitVec 5) : (s.withRnd r).rstN = s.rstN := rfl
@[simp] theorem State.withRnd_host (r : BitVec 5) : (s.withRnd r).host = s.host := rfl
@[simp] theorem State.withRnd_out (r : BitVec 5) : (s.withRnd r).out = s.out := rfl
@[simp] theorem State.withRnd_rate (r : BitVec 5) : (s.withRnd r).rate = s.rate := rfl
@[simp] theorem State.withRnd_outlen (r : BitVec 5) : (s.withRnd r).outlen = s.outlen := rfl
@[simp] theorem State.withRnd_bufUsed (r : BitVec 5) : (s.withRnd r).bufUsed = s.bufUsed := rfl
@[simp] theorem State.withRnd_lanes (r : BitVec 5) (u : Target) : (s.withRnd r).lanes u = s.lanes u := by cases u <;> rfl

/-! ### loadBlk -/

@[simp] theorem State.loadBlk_a (b : List Byte) : (s.loadBlk b).a = s.a := rfl
@[simp] theorem State.loadBlk_buf (b : List Byte) : (s.loadBlk b).buf = s.buf := rfl
@[simp] theorem State.loadBlk_bufLen (b : List Byte) : (s.loadBlk b).bufLen = s.bufLen := rfl
@[simp] theorem State.loadBlk_phase (b : List Byte) : (s.loadBlk b).phase = s.phase := rfl
@[simp] theorem State.loadBlk_absorbed (b : List Byte) : (s.loadBlk b).absorbed = s.absorbed := rfl
@[simp] theorem State.loadBlk_variant (b : List Byte) : (s.loadBlk b).variant = s.variant := rfl
@[simp] theorem State.loadBlk_scratch (b : List Byte) : (s.loadBlk b).scratch = s.scratch := rfl
@[simp] theorem State.loadBlk_seq (b : List Byte) : (s.loadBlk b).seq = s.seq := rfl
@[simp] theorem State.loadBlk_rnd (b : List Byte) : (s.loadBlk b).rnd = s.rnd := rfl
@[simp] theorem State.loadBlk_blk (b : List Byte) : (s.loadBlk b).blk = b := rfl
@[simp] theorem State.loadBlk_sqz (b : List Byte) : (s.loadBlk b).sqz = s.sqz := rfl
@[simp] theorem State.loadBlk_rstN (b : List Byte) : (s.loadBlk b).rstN = s.rstN := rfl
@[simp] theorem State.loadBlk_host (b : List Byte) : (s.loadBlk b).host = s.host := rfl
@[simp] theorem State.loadBlk_out (b : List Byte) : (s.loadBlk b).out = s.out := rfl
@[simp] theorem State.loadBlk_rate (b : List Byte) : (s.loadBlk b).rate = s.rate := rfl
@[simp] theorem State.loadBlk_outlen (b : List Byte) : (s.loadBlk b).outlen = s.outlen := rfl
@[simp] theorem State.loadBlk_bufUsed (b : List Byte) : (s.loadBlk b).bufUsed = s.bufUsed := rfl
@[simp] theorem State.loadBlk_lanes (b : List Byte) (u : Target) : (s.loadBlk b).lanes u = s.lanes u := by cases u <;> rfl

/-! ### withHost -/

@[simp] theorem State.withHost_a (h : List HostEvent) : (s.withHost h).a = s.a := rfl
@[simp] theorem State.withHost_buf (h : List HostEvent) : (s.withHost h).buf = s.buf := rfl
@[simp] theorem State.withHost_bufLen (h : List HostEvent) : (s.withHost h).bufLen = s.bufLen := rfl
@[simp] theorem State.withHost_phase (h : List HostEvent) : (s.withHost h).phase = s.phase := rfl
@[simp] theorem State.withHost_absorbed (h : List HostEvent) : (s.withHost h).absorbed = s.absorbed := rfl
@[simp] theorem State.withHost_variant (h : List HostEvent) : (s.withHost h).variant = s.variant := rfl
@[simp] theorem State.withHost_scratch (h : List HostEvent) : (s.withHost h).scratch = s.scratch := rfl
@[simp] theorem State.withHost_seq (h : List HostEvent) : (s.withHost h).seq = s.seq := rfl
@[simp] theorem State.withHost_rnd (h : List HostEvent) : (s.withHost h).rnd = s.rnd := rfl
@[simp] theorem State.withHost_blk (h : List HostEvent) : (s.withHost h).blk = s.blk := rfl
@[simp] theorem State.withHost_sqz (h : List HostEvent) : (s.withHost h).sqz = s.sqz := rfl
@[simp] theorem State.withHost_rstN (h : List HostEvent) : (s.withHost h).rstN = s.rstN := rfl
@[simp] theorem State.withHost_host (h : List HostEvent) : (s.withHost h).host = h := rfl
@[simp] theorem State.withHost_out (h : List HostEvent) : (s.withHost h).out = s.out := rfl
@[simp] theorem State.withHost_rate (h : List HostEvent) : (s.withHost h).rate = s.rate := rfl
@[simp] theorem State.withHost_outlen (h : List HostEvent) : (s.withHost h).outlen = s.outlen := rfl
@[simp] theorem State.withHost_bufUsed (h : List HostEvent) : (s.withHost h).bufUsed = s.bufUsed := rfl
@[simp] theorem State.withHost_lanes (h : List HostEvent) (u : Target) : (s.withHost h).lanes u = s.lanes u := by cases u <;> rfl

/-! ### deliver -/

@[simp] theorem State.deliver_a (d : Delivered) : (s.deliver d).a = s.a := rfl
@[simp] theorem State.deliver_buf (d : Delivered) : (s.deliver d).buf = s.buf := rfl
@[simp] theorem State.deliver_bufLen (d : Delivered) : (s.deliver d).bufLen = s.bufLen := rfl
@[simp] theorem State.deliver_phase (d : Delivered) : (s.deliver d).phase = s.phase := rfl
@[simp] theorem State.deliver_absorbed (d : Delivered) : (s.deliver d).absorbed = s.absorbed := rfl
@[simp] theorem State.deliver_variant (d : Delivered) : (s.deliver d).variant = s.variant := rfl
@[simp] theorem State.deliver_scratch (d : Delivered) : (s.deliver d).scratch = s.scratch := rfl
@[simp] theorem State.deliver_seq (d : Delivered) : (s.deliver d).seq = s.seq := rfl
@[simp] theorem State.deliver_rnd (d : Delivered) : (s.deliver d).rnd = s.rnd := rfl
@[simp] theorem State.deliver_blk (d : Delivered) : (s.deliver d).blk = s.blk := rfl
@[simp] theorem State.deliver_sqz (d : Delivered) : (s.deliver d).sqz = s.sqz := rfl
@[simp] theorem State.deliver_rstN (d : Delivered) : (s.deliver d).rstN = s.rstN := rfl
@[simp] theorem State.deliver_host (d : Delivered) : (s.deliver d).host = s.host := rfl
@[simp] theorem State.deliver_out (d : Delivered) : (s.deliver d).out = s.out ++ [d] := rfl
@[simp] theorem State.deliver_rate (d : Delivered) : (s.deliver d).rate = s.rate := rfl
@[simp] theorem State.deliver_outlen (d : Delivered) : (s.deliver d).outlen = s.outlen := rfl
@[simp] theorem State.deliver_bufUsed (d : Delivered) : (s.deliver d).bufUsed = s.bufUsed := rfl
@[simp] theorem State.deliver_lanes (d : Delivered) (u : Target) : (s.deliver d).lanes u = s.lanes u := by cases u <;> rfl

/-! ### respond -/

@[simp] theorem State.respond_a (st : Status) (p : List Byte) : (s.respond st p).a = s.a := rfl
@[simp] theorem State.respond_buf (st : Status) (p : List Byte) : (s.respond st p).buf = s.buf := rfl
@[simp] theorem State.respond_bufLen (st : Status) (p : List Byte) : (s.respond st p).bufLen = s.bufLen := rfl
@[simp] theorem State.respond_phase (st : Status) (p : List Byte) : (s.respond st p).phase = s.phase := rfl
@[simp] theorem State.respond_absorbed (st : Status) (p : List Byte) : (s.respond st p).absorbed = s.absorbed := rfl
@[simp] theorem State.respond_variant (st : Status) (p : List Byte) : (s.respond st p).variant = s.variant := rfl
@[simp] theorem State.respond_scratch (st : Status) (p : List Byte) : (s.respond st p).scratch = s.scratch := rfl
@[simp] theorem State.respond_seq (st : Status) (p : List Byte) : (s.respond st p).seq = .respond (rspWord st p.length) p := rfl
@[simp] theorem State.respond_rnd (st : Status) (p : List Byte) : (s.respond st p).rnd = s.rnd := rfl
@[simp] theorem State.respond_blk (st : Status) (p : List Byte) : (s.respond st p).blk = s.blk := rfl
@[simp] theorem State.respond_sqz (st : Status) (p : List Byte) : (s.respond st p).sqz = s.sqz := rfl
@[simp] theorem State.respond_rstN (st : Status) (p : List Byte) : (s.respond st p).rstN = s.rstN := rfl
@[simp] theorem State.respond_host (st : Status) (p : List Byte) : (s.respond st p).host = s.host := rfl
@[simp] theorem State.respond_out (st : Status) (p : List Byte) : (s.respond st p).out = s.out := rfl
@[simp] theorem State.respond_rate (st : Status) (p : List Byte) : (s.respond st p).rate = s.rate := rfl
@[simp] theorem State.respond_outlen (st : Status) (p : List Byte) : (s.respond st p).outlen = s.outlen := rfl
@[simp] theorem State.respond_bufUsed (st : Status) (p : List Byte) : (s.respond st p).bufUsed = s.bufUsed := rfl
@[simp] theorem State.respond_lanes (st : Status) (p : List Byte) (u : Target) : (s.respond st p).lanes u = s.lanes u := by cases u <;> rfl

/-! ### withLanes -/

@[simp] theorem State.withLanes_buf (t : Target) (v : Lanes) : (s.withLanes t v).buf = s.buf := by cases t <;> rfl
@[simp] theorem State.withLanes_bufLen (t : Target) (v : Lanes) : (s.withLanes t v).bufLen = s.bufLen := by cases t <;> rfl
@[simp] theorem State.withLanes_phase (t : Target) (v : Lanes) : (s.withLanes t v).phase = s.phase := by cases t <;> rfl
@[simp] theorem State.withLanes_absorbed (t : Target) (v : Lanes) : (s.withLanes t v).absorbed = s.absorbed := by cases t <;> rfl
@[simp] theorem State.withLanes_variant (t : Target) (v : Lanes) : (s.withLanes t v).variant = s.variant := by cases t <;> rfl
@[simp] theorem State.withLanes_seq (t : Target) (v : Lanes) : (s.withLanes t v).seq = s.seq := by cases t <;> rfl
@[simp] theorem State.withLanes_rnd (t : Target) (v : Lanes) : (s.withLanes t v).rnd = s.rnd := by cases t <;> rfl
@[simp] theorem State.withLanes_blk (t : Target) (v : Lanes) : (s.withLanes t v).blk = s.blk := by cases t <;> rfl
@[simp] theorem State.withLanes_sqz (t : Target) (v : Lanes) : (s.withLanes t v).sqz = s.sqz := by cases t <;> rfl
@[simp] theorem State.withLanes_rstN (t : Target) (v : Lanes) : (s.withLanes t v).rstN = s.rstN := by cases t <;> rfl
@[simp] theorem State.withLanes_host (t : Target) (v : Lanes) : (s.withLanes t v).host = s.host := by cases t <;> rfl
@[simp] theorem State.withLanes_out (t : Target) (v : Lanes) : (s.withLanes t v).out = s.out := by cases t <;> rfl
@[simp] theorem State.withLanes_rate (t : Target) (v : Lanes) : (s.withLanes t v).rate = s.rate := by cases t <;> rfl
@[simp] theorem State.withLanes_outlen (t : Target) (v : Lanes) : (s.withLanes t v).outlen = s.outlen := by cases t <;> rfl
@[simp] theorem State.withLanes_bufUsed (t : Target) (v : Lanes) : (s.withLanes t v).bufUsed = s.bufUsed := by cases t <;> rfl
@[simp] theorem State.withLanes_lanes (t : Target) (v : Lanes) : (s.withLanes t v).lanes t = v := by cases t <;> rfl
@[simp] theorem State.withLanes_a_scratch  (v : Lanes): (s.withLanes .a v).scratch = s.scratch := rfl
@[simp] theorem State.withLanes_s_a  (v : Lanes): (s.withLanes .s v).a = s.a := rfl

/-! ### onLanes -/

@[simp] theorem State.onLanes_buf (t : Target) (f : Lanes → Lanes) : (s.onLanes t f).buf = s.buf := by cases t <;> rfl
@[simp] theorem State.onLanes_bufLen (t : Target) (f : Lanes → Lanes) : (s.onLanes t f).bufLen = s.bufLen := by cases t <;> rfl
@[simp] theorem State.onLanes_phase (t : Target) (f : Lanes → Lanes) : (s.onLanes t f).phase = s.phase := by cases t <;> rfl
@[simp] theorem State.onLanes_absorbed (t : Target) (f : Lanes → Lanes) : (s.onLanes t f).absorbed = s.absorbed := by cases t <;> rfl
@[simp] theorem State.onLanes_variant (t : Target) (f : Lanes → Lanes) : (s.onLanes t f).variant = s.variant := by cases t <;> rfl
@[simp] theorem State.onLanes_seq (t : Target) (f : Lanes → Lanes) : (s.onLanes t f).seq = s.seq := by cases t <;> rfl
@[simp] theorem State.onLanes_rnd (t : Target) (f : Lanes → Lanes) : (s.onLanes t f).rnd = s.rnd := by cases t <;> rfl
@[simp] theorem State.onLanes_blk (t : Target) (f : Lanes → Lanes) : (s.onLanes t f).blk = s.blk := by cases t <;> rfl
@[simp] theorem State.onLanes_sqz (t : Target) (f : Lanes → Lanes) : (s.onLanes t f).sqz = s.sqz := by cases t <;> rfl
@[simp] theorem State.onLanes_rstN (t : Target) (f : Lanes → Lanes) : (s.onLanes t f).rstN = s.rstN := by cases t <;> rfl
@[simp] theorem State.onLanes_host (t : Target) (f : Lanes → Lanes) : (s.onLanes t f).host = s.host := by cases t <;> rfl
@[simp] theorem State.onLanes_out (t : Target) (f : Lanes → Lanes) : (s.onLanes t f).out = s.out := by cases t <;> rfl
@[simp] theorem State.onLanes_rate (t : Target) (f : Lanes → Lanes) : (s.onLanes t f).rate = s.rate := by cases t <;> rfl
@[simp] theorem State.onLanes_outlen (t : Target) (f : Lanes → Lanes) : (s.onLanes t f).outlen = s.outlen := by cases t <;> rfl
@[simp] theorem State.onLanes_bufUsed (t : Target) (f : Lanes → Lanes) : (s.onLanes t f).bufUsed = s.bufUsed := by cases t <;> rfl
@[simp] theorem State.onLanes_lanes (t : Target) (f : Lanes → Lanes) : (s.onLanes t f).lanes t = f (s.lanes t) := by cases t <;> rfl
@[simp] theorem State.onLanes_a_scratch  (f : Lanes → Lanes): (s.onLanes .a f).scratch = s.scratch := rfl
@[simp] theorem State.onLanes_s_a  (f : Lanes → Lanes): (s.onLanes .s f).a = s.a := rfl

/-! ### keccakOn -/

@[simp] theorem State.keccakOn_buf (t : Target) : (s.keccakOn t).buf = s.buf := by cases t <;> rfl
@[simp] theorem State.keccakOn_bufLen (t : Target) : (s.keccakOn t).bufLen = s.bufLen := by cases t <;> rfl
@[simp] theorem State.keccakOn_phase (t : Target) : (s.keccakOn t).phase = s.phase := by cases t <;> rfl
@[simp] theorem State.keccakOn_absorbed (t : Target) : (s.keccakOn t).absorbed = s.absorbed := by cases t <;> rfl
@[simp] theorem State.keccakOn_variant (t : Target) : (s.keccakOn t).variant = s.variant := by cases t <;> rfl
@[simp] theorem State.keccakOn_seq (t : Target) : (s.keccakOn t).seq = s.seq := by cases t <;> rfl
@[simp] theorem State.keccakOn_blk (t : Target) : (s.keccakOn t).blk = s.blk := by cases t <;> rfl
@[simp] theorem State.keccakOn_sqz (t : Target) : (s.keccakOn t).sqz = s.sqz := by cases t <;> rfl
@[simp] theorem State.keccakOn_rstN (t : Target) : (s.keccakOn t).rstN = s.rstN := by cases t <;> rfl
@[simp] theorem State.keccakOn_host (t : Target) : (s.keccakOn t).host = s.host := by cases t <;> rfl
@[simp] theorem State.keccakOn_out (t : Target) : (s.keccakOn t).out = s.out := by cases t <;> rfl
@[simp] theorem State.keccakOn_rate (t : Target) : (s.keccakOn t).rate = s.rate := by cases t <;> rfl
@[simp] theorem State.keccakOn_outlen (t : Target) : (s.keccakOn t).outlen = s.outlen := by cases t <;> rfl
@[simp] theorem State.keccakOn_bufUsed (t : Target) : (s.keccakOn t).bufUsed = s.bufUsed := by cases t <;> rfl
@[simp] theorem State.keccakOn_lanes (t : Target) : (s.keccakOn t).lanes t = keccakPerm (s.lanes t) := by cases t <;> rfl
@[simp] theorem State.keccakOn_a_scratch : (s.keccakOn .a).scratch = s.scratch := rfl
@[simp] theorem State.keccakOn_s_a : (s.keccakOn .s).a = s.a := rfl
@[simp] theorem State.keccakOn_rnd (t : Target) : (s.keccakOn t).rnd = 0 := by cases t <;> rfl

/-! ### roundOn -/

@[simp] theorem State.roundOn_buf (ri : Fin 24) (t : Target) : (s.roundOn ri t).buf = s.buf := by cases t <;> rfl
@[simp] theorem State.roundOn_bufLen (ri : Fin 24) (t : Target) : (s.roundOn ri t).bufLen = s.bufLen := by cases t <;> rfl
@[simp] theorem State.roundOn_phase (ri : Fin 24) (t : Target) : (s.roundOn ri t).phase = s.phase := by cases t <;> rfl
@[simp] theorem State.roundOn_absorbed (ri : Fin 24) (t : Target) : (s.roundOn ri t).absorbed = s.absorbed := by cases t <;> rfl
@[simp] theorem State.roundOn_variant (ri : Fin 24) (t : Target) : (s.roundOn ri t).variant = s.variant := by cases t <;> rfl
@[simp] theorem State.roundOn_seq (ri : Fin 24) (t : Target) : (s.roundOn ri t).seq = s.seq := by cases t <;> rfl
@[simp] theorem State.roundOn_blk (ri : Fin 24) (t : Target) : (s.roundOn ri t).blk = s.blk := by cases t <;> rfl
@[simp] theorem State.roundOn_sqz (ri : Fin 24) (t : Target) : (s.roundOn ri t).sqz = s.sqz := by cases t <;> rfl
@[simp] theorem State.roundOn_rstN (ri : Fin 24) (t : Target) : (s.roundOn ri t).rstN = s.rstN := by cases t <;> rfl
@[simp] theorem State.roundOn_host (ri : Fin 24) (t : Target) : (s.roundOn ri t).host = s.host := by cases t <;> rfl
@[simp] theorem State.roundOn_out (ri : Fin 24) (t : Target) : (s.roundOn ri t).out = s.out := by cases t <;> rfl
@[simp] theorem State.roundOn_rate (ri : Fin 24) (t : Target) : (s.roundOn ri t).rate = s.rate := by cases t <;> rfl
@[simp] theorem State.roundOn_outlen (ri : Fin 24) (t : Target) : (s.roundOn ri t).outlen = s.outlen := by cases t <;> rfl
@[simp] theorem State.roundOn_bufUsed (ri : Fin 24) (t : Target) : (s.roundOn ri t).bufUsed = s.bufUsed := by cases t <;> rfl
@[simp] theorem State.roundOn_lanes (ri : Fin 24) (t : Target) : (s.roundOn ri t).lanes t = roundStep ri (s.lanes t) := by cases t <;> rfl
@[simp] theorem State.roundOn_a_scratch (ri : Fin 24) : (s.roundOn ri .a).scratch = s.scratch := rfl
@[simp] theorem State.roundOn_s_a (ri : Fin 24) : (s.roundOn ri .s).a = s.a := rfl
@[simp] theorem State.roundOn_rnd (ri : Fin 24) (t : Target) : (s.roundOn ri t).rnd = nextRnd ri := by cases t <;> rfl

/-! ### absorbOn -/

@[simp] theorem State.absorbOn_buf (t : Target) : (s.absorbOn t).buf = s.buf := by cases t <;> rfl
@[simp] theorem State.absorbOn_bufLen (t : Target) : (s.absorbOn t).bufLen = s.bufLen := by cases t <;> rfl
@[simp] theorem State.absorbOn_phase (t : Target) : (s.absorbOn t).phase = s.phase := by cases t <;> rfl
@[simp] theorem State.absorbOn_absorbed (t : Target) : (s.absorbOn t).absorbed = s.absorbed := by cases t <;> rfl
@[simp] theorem State.absorbOn_variant (t : Target) : (s.absorbOn t).variant = s.variant := by cases t <;> rfl
@[simp] theorem State.absorbOn_seq (t : Target) : (s.absorbOn t).seq = s.seq := by cases t <;> rfl
@[simp] theorem State.absorbOn_blk (t : Target) : (s.absorbOn t).blk = s.blk := by cases t <;> rfl
@[simp] theorem State.absorbOn_sqz (t : Target) : (s.absorbOn t).sqz = s.sqz := by cases t <;> rfl
@[simp] theorem State.absorbOn_rstN (t : Target) : (s.absorbOn t).rstN = s.rstN := by cases t <;> rfl
@[simp] theorem State.absorbOn_host (t : Target) : (s.absorbOn t).host = s.host := by cases t <;> rfl
@[simp] theorem State.absorbOn_out (t : Target) : (s.absorbOn t).out = s.out := by cases t <;> rfl
@[simp] theorem State.absorbOn_rate (t : Target) : (s.absorbOn t).rate = s.rate := by cases t <;> rfl
@[simp] theorem State.absorbOn_outlen (t : Target) : (s.absorbOn t).outlen = s.outlen := by cases t <;> rfl
@[simp] theorem State.absorbOn_bufUsed (t : Target) : (s.absorbOn t).bufUsed = s.bufUsed := by cases t <;> rfl
@[simp] theorem State.absorbOn_lanes (t : Target) : (s.absorbOn t).lanes t = absorbBlock s.blk (s.lanes t) := by cases t <;> rfl
@[simp] theorem State.absorbOn_a_scratch : (s.absorbOn .a).scratch = s.scratch := rfl
@[simp] theorem State.absorbOn_s_a : (s.absorbOn .s).a = s.a := rfl
@[simp] theorem State.absorbOn_rnd (t : Target) : (s.absorbOn t).rnd = 0 := by cases t <;> rfl

/-! ### squeezeOn -/

@[simp] theorem State.squeezeOn_buf (t : Target) : (s.squeezeOn t).buf = s.buf := by cases t <;> rfl
@[simp] theorem State.squeezeOn_bufLen (t : Target) : (s.squeezeOn t).bufLen = s.bufLen := by cases t <;> rfl
@[simp] theorem State.squeezeOn_phase (t : Target) : (s.squeezeOn t).phase = s.phase := by cases t <;> rfl
@[simp] theorem State.squeezeOn_absorbed (t : Target) : (s.squeezeOn t).absorbed = s.absorbed := by cases t <;> rfl
@[simp] theorem State.squeezeOn_variant (t : Target) : (s.squeezeOn t).variant = s.variant := by cases t <;> rfl
@[simp] theorem State.squeezeOn_seq (t : Target) : (s.squeezeOn t).seq = s.seq := by cases t <;> rfl
@[simp] theorem State.squeezeOn_rnd (t : Target) : (s.squeezeOn t).rnd = s.rnd := by cases t <;> rfl
@[simp] theorem State.squeezeOn_blk (t : Target) : (s.squeezeOn t).blk = s.blk := by cases t <;> rfl
@[simp] theorem State.squeezeOn_rstN (t : Target) : (s.squeezeOn t).rstN = s.rstN := by cases t <;> rfl
@[simp] theorem State.squeezeOn_host (t : Target) : (s.squeezeOn t).host = s.host := by cases t <;> rfl
@[simp] theorem State.squeezeOn_out (t : Target) : (s.squeezeOn t).out = s.out := by cases t <;> rfl
@[simp] theorem State.squeezeOn_rate (t : Target) : (s.squeezeOn t).rate = s.rate := by cases t <;> rfl
@[simp] theorem State.squeezeOn_outlen (t : Target) : (s.squeezeOn t).outlen = s.outlen := by cases t <;> rfl
@[simp] theorem State.squeezeOn_bufUsed (t : Target) : (s.squeezeOn t).bufUsed = s.bufUsed := by cases t <;> rfl
@[simp] theorem State.squeezeOn_lanes (t : Target) : (s.squeezeOn t).lanes t = (squeezeOut s.rate s.outlen (s.lanes t)).2 := by cases t <;> rfl
@[simp] theorem State.squeezeOn_a_scratch : (s.squeezeOn .a).scratch = s.scratch := rfl
@[simp] theorem State.squeezeOn_s_a : (s.squeezeOn .s).a = s.a := rfl
@[simp] theorem State.squeezeOn_sqz (t : Target) :
    (s.squeezeOn t).sqz = (squeezeOut s.rate s.outlen (s.lanes t)).1 := by cases t <;> rfl

/-! ### padOn -/

@[simp] theorem State.padOn_a : s.padOn.a = s.a := rfl
@[simp] theorem State.padOn_buf : s.padOn.buf = s.buf := rfl
@[simp] theorem State.padOn_bufLen : s.padOn.bufLen = s.bufLen := rfl
@[simp] theorem State.padOn_phase : s.padOn.phase = s.phase := rfl
@[simp] theorem State.padOn_absorbed : s.padOn.absorbed = s.absorbed := rfl
@[simp] theorem State.padOn_variant : s.padOn.variant = s.variant := rfl
@[simp] theorem State.padOn_scratch : s.padOn.scratch = s.scratch := rfl
@[simp] theorem State.padOn_seq : s.padOn.seq = s.seq := rfl
@[simp] theorem State.padOn_rnd : s.padOn.rnd = s.rnd := rfl
@[simp] theorem State.padOn_sqz : s.padOn.sqz = s.sqz := rfl
@[simp] theorem State.padOn_rstN : s.padOn.rstN = s.rstN := rfl
@[simp] theorem State.padOn_host : s.padOn.host = s.host := rfl
@[simp] theorem State.padOn_out : s.padOn.out = s.out := rfl
@[simp] theorem State.padOn_rate : s.padOn.rate = s.rate := rfl
@[simp] theorem State.padOn_outlen : s.padOn.outlen = s.outlen := rfl
@[simp] theorem State.padOn_bufUsed : s.padOn.bufUsed = s.bufUsed := rfl

/-! ### duplicate -/

@[simp] theorem State.duplicate_a : s.duplicate.a = s.a := rfl
@[simp] theorem State.duplicate_buf : s.duplicate.buf = s.buf := rfl
@[simp] theorem State.duplicate_bufLen : s.duplicate.bufLen = s.bufLen := rfl
@[simp] theorem State.duplicate_phase : s.duplicate.phase = s.phase := rfl
@[simp] theorem State.duplicate_absorbed : s.duplicate.absorbed = s.absorbed := rfl
@[simp] theorem State.duplicate_variant : s.duplicate.variant = s.variant := rfl
@[simp] theorem State.duplicate_seq : s.duplicate.seq = s.seq := rfl
@[simp] theorem State.duplicate_rnd : s.duplicate.rnd = s.rnd := rfl
@[simp] theorem State.duplicate_blk : s.duplicate.blk = s.blk := rfl
@[simp] theorem State.duplicate_sqz : s.duplicate.sqz = s.sqz := rfl
@[simp] theorem State.duplicate_rstN : s.duplicate.rstN = s.rstN := rfl
@[simp] theorem State.duplicate_host : s.duplicate.host = s.host := rfl
@[simp] theorem State.duplicate_out : s.duplicate.out = s.out := rfl
@[simp] theorem State.duplicate_rate : s.duplicate.rate = s.rate := rfl
@[simp] theorem State.duplicate_outlen : s.duplicate.outlen = s.outlen := rfl
@[simp] theorem State.duplicate_bufUsed : s.duplicate.bufUsed = s.bufUsed := rfl

/-! ### sumOn -/

@[simp] theorem State.sumOn_a : s.sumOn.a = s.a := by simp [State.sumOn]
@[simp] theorem State.sumOn_buf : s.sumOn.buf = s.buf := by simp [State.sumOn]
@[simp] theorem State.sumOn_bufLen : s.sumOn.bufLen = s.bufLen := by simp [State.sumOn]
@[simp] theorem State.sumOn_phase : s.sumOn.phase = s.phase := by simp [State.sumOn]
@[simp] theorem State.sumOn_absorbed : s.sumOn.absorbed = s.absorbed := by simp [State.sumOn]
@[simp] theorem State.sumOn_variant : s.sumOn.variant = s.variant := by simp [State.sumOn]
@[simp] theorem State.sumOn_seq : s.sumOn.seq = s.seq := by simp [State.sumOn]
@[simp] theorem State.sumOn_rstN : s.sumOn.rstN = s.rstN := by simp [State.sumOn]
@[simp] theorem State.sumOn_host : s.sumOn.host = s.host := by simp [State.sumOn]
@[simp] theorem State.sumOn_out : s.sumOn.out = s.out := by simp [State.sumOn]
@[simp] theorem State.sumOn_rate : s.sumOn.rate = s.rate := by simp [State.sumOn]
@[simp] theorem State.sumOn_outlen : s.sumOn.outlen = s.outlen := by simp [State.sumOn]
@[simp] theorem State.sumOn_bufUsed : s.sumOn.bufUsed = s.bufUsed := by simp [State.sumOn]

/-! ### absorbBuf -/

@[simp] theorem State.absorbBuf_buf : s.absorbBuf.buf = s.buf := rfl
@[simp] theorem State.absorbBuf_phase : s.absorbBuf.phase = s.phase := rfl
@[simp] theorem State.absorbBuf_absorbed : s.absorbBuf.absorbed = s.absorbed := rfl
@[simp] theorem State.absorbBuf_variant : s.absorbBuf.variant = s.variant := rfl
@[simp] theorem State.absorbBuf_scratch : s.absorbBuf.scratch = s.scratch := rfl
@[simp] theorem State.absorbBuf_seq : s.absorbBuf.seq = s.seq := rfl
@[simp] theorem State.absorbBuf_sqz : s.absorbBuf.sqz = s.sqz := rfl
@[simp] theorem State.absorbBuf_rstN : s.absorbBuf.rstN = s.rstN := rfl
@[simp] theorem State.absorbBuf_host : s.absorbBuf.host = s.host := rfl
@[simp] theorem State.absorbBuf_out : s.absorbBuf.out = s.out := rfl
@[simp] theorem State.absorbBuf_rate : s.absorbBuf.rate = s.rate := rfl
@[simp] theorem State.absorbBuf_outlen : s.absorbBuf.outlen = s.outlen := rfl

/-! ### clear -/

@[simp] theorem State.clear_buf : s.clear.buf = s.buf := rfl
@[simp] theorem State.clear_variant : s.clear.variant = s.variant := rfl
@[simp] theorem State.clear_scratch : s.clear.scratch = s.scratch := rfl
@[simp] theorem State.clear_seq : s.clear.seq = s.seq := rfl
@[simp] theorem State.clear_rnd : s.clear.rnd = 0 := rfl
@[simp] theorem State.clear_blk : s.clear.blk = s.blk := rfl
@[simp] theorem State.clear_sqz : s.clear.sqz = s.sqz := rfl
@[simp] theorem State.clear_rstN : s.clear.rstN = s.rstN := rfl
@[simp] theorem State.clear_host : s.clear.host = s.host := rfl
@[simp] theorem State.clear_out : s.clear.out = s.out := rfl
@[simp] theorem State.clear_rate : s.clear.rate = s.rate := rfl
@[simp] theorem State.clear_outlen : s.clear.outlen = s.outlen := rfl

/-! ### The values the larger operations write -/

@[simp] theorem State.duplicate_scratch : s.duplicate.scratch = s.a := rfl
@[simp] theorem State.padOn_blk : s.padOn.blk = padBlock s.rate s.variant.dsByte s.bufUsed := rfl
@[simp] theorem State.sumOn_rnd : s.sumOn.rnd = 0 := by simp [State.sumOn]
@[simp] theorem State.sumOn_blk : s.sumOn.blk = padBlock s.rate s.variant.dsByte s.bufUsed := by simp [State.sumOn]
@[simp] theorem State.padOn_lanes (u : Target) : s.padOn.lanes u = s.lanes u := by cases u <;> rfl
@[simp] theorem State.duplicate_lanes_s : s.duplicate.lanes .s = s.a := rfl
@[simp] theorem State.sumOn_sqz : s.sumOn.sqz =
    (squeezeOut s.rate s.outlen (absorbBlock (padBlock s.rate s.variant.dsByte s.bufUsed) s.a)).1 := by
  simp [State.sumOn]
@[simp] theorem State.sumOn_scratch : s.sumOn.scratch =
    (squeezeOut s.rate s.outlen (absorbBlock (padBlock s.rate s.variant.dsByte s.bufUsed) s.a)).2 :=
  (State.squeezeOn_lanes ((s.duplicate.padOn).absorbOn .s) .s).trans (by simp)
@[simp] theorem State.absorbBuf_a : s.absorbBuf.a = absorbBlock (s.buf.take s.rate) s.a := rfl
@[simp] theorem State.absorbBuf_bufLen : s.absorbBuf.bufLen = 0 := rfl
@[simp] theorem State.absorbBuf_rnd : s.absorbBuf.rnd = 0 := rfl
@[simp] theorem State.absorbBuf_blk : s.absorbBuf.blk = s.buf.take s.rate := rfl
@[simp] theorem State.clear_a : s.clear.a = Lanes.zero := rfl
@[simp] theorem State.clear_bufLen : s.clear.bufLen = 0 := rfl
@[simp] theorem State.clear_phase : s.clear.phase = .absorbing := rfl
@[simp] theorem State.clear_absorbed : s.clear.absorbed = 0 := rfl

end Sys2Proof.Machine
end

