-- ==== Sys2Proof/Laws/Ops.lean ====
section
/-! SUPPORT. One lemma per shared operation of Machine/Ops.lean, saying what it can do; later proofs cite it
instead of unfolding the operation. -/

namespace Sys2Proof.Machine

theorem State.rate_lt (s : State) : s.rate < 200 := Variant.rate_lt s.variant

theorem State.bufUsed_length {s : State} (h : s.BufOk) : s.bufUsed.length = s.bufLen.toNat := by
  have := h.2
  simp [State.bufUsed, h.1]; omega

/-- Storing a byte in a well-formed buffer: BUFLEN counts it and BUF[0..BUFLEN) gains it at its end. -/
theorem State.storeByte_spec {s : State} (h : s.BufOk) (b : Byte) :
    (s.storeByte b).bufLen.toNat = s.bufLen.toNat + 1 ∧ (s.storeByte b).bufUsed = s.bufUsed ++ [b]
      ∧ (s.storeByte b).buf.length = s.rate := by
  have hr := s.rate_lt
  have h2 := h.2
  have hlen : (s.bufLen + 1#8).toNat = s.bufLen.toNat + 1 := by
    simp [BitVec.toNat_add]; omega
  refine ⟨hlen, ?_, by simp [State.storeByte, h.1]⟩
  simp only [State.bufUsed, State.storeByte]
  change List.take (s.bufLen + 1#8).toNat _ = _
  rw [hlen, List.take_set, List.take_succ_eq_append_getElem (by omega), List.set_append_right _ _ (by simp)]
  simp [Nat.min_eq_left (show s.bufLen.toNat ≤ s.buf.length by omega)]

/-- The body of WRITE's loop on a well-formed buffer either only buffers the byte, or completes a block and
absorbs it at once (R150). -/
theorem State.writeByte_spec {s : State} (h : s.BufOk) (b : Byte) :
    (s.writeByte b).BufOk ∧
    ((s.bufLen.toNat + 1 < s.rate ∧ (s.writeByte b).a = s.a
        ∧ (s.writeByte b).bufUsed = s.bufUsed ++ [b] ∧ (s.writeByte b).bufLen = s.bufLen + 1
        ∧ (s.writeByte b).rnd = s.rnd ∧ (s.writeByte b).blk = s.blk)
      ∨ (s.bufLen.toNat + 1 = s.rate ∧ (s.writeByte b).a = absorbBlock (s.bufUsed ++ [b]) s.a
        ∧ (s.writeByte b).bufUsed = [] ∧ (s.writeByte b).bufLen = 0
        ∧ (s.writeByte b).rnd = 0 ∧ (s.writeByte b).blk = s.bufUsed ++ [b])) := by
  obtain ⟨hlen, hused, hbuf⟩ := State.storeByte_spec h b
  have hlt := h.2
  by_cases hc : (s.storeByte b).bufLen.toNat = s.rate
  · have hfull : (s.storeByte b).buf.take s.rate = s.bufUsed ++ [b] := by
      rw [← hused, State.bufUsed, hc]
    have hw : s.writeByte b = (s.storeByte b).absorbBuf := by simp [State.writeByte, hc]
    have hr : (s.storeByte b).rate = s.rate := rfl
    rw [hw]
    refine ⟨⟨by simpa [hr] using hbuf, Variant.rate_pos s.variant⟩, .inr ⟨by omega, ?_, ?_, rfl, rfl, ?_⟩⟩
    · rw [State.absorbBuf_a, hr, hfull]; rfl
    · simp [State.bufUsed]
    · rw [State.absorbBuf_blk, hr, hfull]
  · have hw : s.writeByte b = s.storeByte b := by simp [State.writeByte, hc]
    rw [hw]
    exact ⟨⟨hbuf, by change (s.storeByte b).bufLen.toNat < s.rate; omega⟩, .inl ⟨by omega, rfl, hused, rfl, rfl, rfl⟩⟩

/-- What WRITE's loop body never changes, and its count (R150). -/
theorem State.writeByte_frame (s : State) (b : Byte) :
    (s.writeByte b).phase = s.phase ∧ (s.writeByte b).absorbed = s.absorbed + 1
      ∧ (s.writeByte b).variant = s.variant ∧ (s.writeByte b).scratch = s.scratch ∧ (s.writeByte b).seq = s.seq
      ∧ (s.writeByte b).sqz = s.sqz ∧ (s.writeByte b).rstN = s.rstN ∧ (s.writeByte b).host = s.host
      ∧ (s.writeByte b).out = s.out := by
  unfold State.writeByte
  split <;> exact ⟨rfl, rfl, rfl, rfl, rfl, rfl, rfl, rfl, rfl⟩

@[simp] theorem State.writeBytes_nil (s : State) : s.writeBytes [] = s := rfl

@[simp] theorem State.writeBytes_cons (s : State) (b : Byte) (p : List Byte) :
    s.writeBytes (b :: p) = (s.writeByte b).writeBytes p := rfl

theorem State.writeBytes_append (s : State) (p q : List Byte) :
    s.writeBytes (p ++ q) = (s.writeBytes p).writeBytes q := List.foldl_append

/-- WRITE's loop keeps the buffer well formed (R25). -/
theorem State.writeBytes_bufOk {s : State} (h : s.BufOk) (p : List Byte) : (s.writeBytes p).BufOk := by
  induction p generalizing s with
  | nil => exact h
  | cons b p ih => exact ih (State.writeByte_spec h b).1

/-- What WRITE's loop never changes, and its count (R150). -/
theorem State.writeBytes_frame (s : State) (p : List Byte) :
    (s.writeBytes p).phase = s.phase ∧ (s.writeBytes p).absorbed = s.absorbed + BitVec.ofNat 64 p.length
      ∧ (s.writeBytes p).variant = s.variant ∧ (s.writeBytes p).scratch = s.scratch ∧ (s.writeBytes p).seq = s.seq
      ∧ (s.writeBytes p).sqz = s.sqz ∧ (s.writeBytes p).rstN = s.rstN ∧ (s.writeBytes p).host = s.host
      ∧ (s.writeBytes p).out = s.out := by
  induction p generalizing s with
  | nil => simp
  | cons b p ih =>
    obtain ⟨h1, h2, h3, h4, h5, h6, h7, h8, h9⟩ := State.writeByte_frame s b
    obtain ⟨i1, i2, i3, i4, i5, i6, i7, i8, i9⟩ := ih (s.writeByte b)
    refine ⟨i1.trans h1, ?_, i3.trans h3, i4.trans h4, i5.trans h5, i6.trans h6, i7.trans h7, i8.trans h8,
      i9.trans h9⟩
    rw [State.writeBytes_cons, i2, h2, BitVec.add_assoc, List.length_cons, Nat.add_comm, BitVec.ofNat_add]
    rfl

end Sys2Proof.Machine
end

