-- ==== Sys2Proof/Laws/Words.lean ====
section
/-! SUPPORT. The fields of the words the encoder and the responses build, and the words of given fields: one lemma
per field, cited instead of unfolding the words. -/

namespace Sys2Proof

@[simp] theorem opcField_cmdWord (opc : Byte) (len : Nat) : opcField (cmdWord opc len) = opc := by
  ext i hi
  simp [opcField, cmdWord, hi, show i < 32 by omega]

theorem lenField_cmdWord (opc : Byte) {len : Nat} (h : len < lenBound) : lenField (cmdWord opc len) = len := by
  have hb : (cmdWord opc len).extractLsb' 8 24 = BitVec.ofNat 24 len := by
    ext i hi
    simp [cmdWord, hi, show 8 + i < 32 by omega, show ¬ (8 + i < 8) by omega]
  simp only [lenBound] at h
  simp [lenField, hb]; omega

/-- LEN is a 24-bit field (R61). -/
theorem lenField_lt (w : Word) : lenField w < lenBound := (w.extractLsb' 8 24).isLt

/-- A word is its OPC and its LEN (R61). -/
theorem cmdWord_fields (w : Word) : cmdWord (opcField w) (lenField w) = w := by
  have hl : BitVec.ofNat 24 (lenField w) = w.extractLsb' 8 24 := by
    simp only [lenField, BitVec.ofNat_toNat, BitVec.setWidth_eq]
  ext i hi
  simp only [cmdWord, hl]
  simp [opcField]
  by_cases h : i < 8
  · simp [h, BitVec.getLsbD_eq_getElem hi]
  · simp [h, show i - 8 < 24 by omega, show 8 + (i - 8) = i by omega, BitVec.getLsbD_eq_getElem hi]

/-- A command word as a number: `(LEN << 8) | OPC` (R150, R182). -/
theorem cmdWord_eq_ofNat (opc : Byte) (len : Nat) : cmdWord opc len = BitVec.ofNat 32 (len * 256 + opc.toNat) := by
  apply BitVec.eq_of_toNat_eq
  have ho := opc.isLt
  have h1 : ((len % 16777216) <<< 8 ||| opc.toNat) = (len % 16777216) <<< 8 + opc.toNat :=
    (Nat.shiftLeft_add_eq_or_of_lt ho _).symm
  have h2 : (len % 16777216) <<< 8 % 4294967296 = (len % 16777216) <<< 8 := by
    rw [Nat.shiftLeft_eq]; omega
  have h3 : opc.toNat % 4294967296 = opc.toNat := by omega
  simp only [cmdWord, BitVec.toNat_or, BitVec.toNat_shiftLeft, BitVec.toNat_setWidth, BitVec.toNat_ofNat]
  rw [show (2 : Nat) ^ 24 = 16777216 from rfl, show (2 : Nat) ^ 32 = 4294967296 from rfl, h3,
    Nat.mod_eq_of_lt (show len % 16777216 < 4294967296 by omega), h2, h1, Nat.shiftLeft_eq]
  omega

/-- A word is its four bytes (R45). -/
theorem wordOfBytes_extract (w : Word) :
    wordOfBytes (w.extractLsb' 0 8) (w.extractLsb' 8 8) (w.extractLsb' 16 8) (w.extractLsb' 24 8) = w := by
  ext i hi
  simp [wordOfBytes]
  by_cases h : i < 8
  · simp [h, BitVec.getLsbD_eq_getElem hi]; intros; omega
  · by_cases h2 : i < 16
    · simp [h, h2, show i - 8 < 8 by omega, show 8 + (i - 8) = i by omega, BitVec.getLsbD_eq_getElem hi]
      intros; omega
    · by_cases h3 : i < 24
      · simp [h, h2, h3, show i - 16 < 8 by omega, show 16 + (i - 16) = i by omega, BitVec.getLsbD_eq_getElem hi]
        intros; omega
      · simp [h, h2, h3, show i - 24 < 8 by omega, show 24 + (i - 24) = i by omega, BitVec.getLsbD_eq_getElem hi,
          show ¬ (i - 16 < 8) by omega, show ¬ (i - 8 < 8) by omega]

/-- A decoded command is a decoded word with a payload of LEN bytes (R62). -/
theorem decodeCommand_ok {w : Word} {p : List Byte} {i : Instr} :
    decodeCommand w p = .ok i ↔ decodeWord w p = .ok i ∧ p.length = lenField w := by
  unfold decodeCommand
  cases decodeWord w p with
  | error e => simp
  | ok j => by_cases h : p.length = lenField w <;> simp [h]

/-- What a command word decodes to (R65, R71). -/
theorem decodeWord_ok_cases {w : Word} {p : List Byte} {i : Instr} (h : decodeWord w p = .ok i) :
    i = .write p ∨ i = .unmarshal p ∨ i ∈ [Instr.sum, .reset, .size, .blockSize, .marshal] := by
  unfold decodeWord at h
  split_ifs at h <;> cases h <;> simp

namespace Machine

/-- A response word is a word of its STATUS and its RLEN (R63). -/
theorem rspWord_eq (st : Status) (len : Nat) : rspWord st len = cmdWord (statusCode st) len := rfl

@[simp] theorem opcField_rspWord (st : Status) (len : Nat) : opcField (rspWord st len) = statusCode st :=
  opcField_cmdWord _ _

theorem lenField_rspWord (st : Status) {len : Nat} (h : len < lenBound) : lenField (rspWord st len) = len :=
  lenField_cmdWord _ h

/-- With STATUS OK the response word is the length times 256 (R63). -/
theorem rspWord_ok (len : Nat) : rspWord .ok len = BitVec.ofNat 32 (len * 256) := by
  apply BitVec.eq_of_toNat_eq
  simp [rspWord, statusCode, Nat.shiftLeft_eq]
  omega

end Machine

end Sys2Proof
end

