-- ==== Sys2Proof/Laws/PerInstr.lean ====
section
/-! SUPPORT. Statements made per instruction. `EncodedOpcode`: the encoded word of an instruction carries the
operation code that R65 or R66 gives its row. -/

namespace Sys2Proof

theorem opcField_microWord (mopc : Byte) (ri : BitVec 5) (t : Target) : opcField (microWord mopc ri t) = mopc := by
  ext i hi
  simp [opcField, microWord, hi, show i < 32 by omega, show i < 13 by omega]

/-- The word of `i` has `i`'s row's operation code in bits [7:0] (R61, R66). -/
def Laws.EncodedOpcode.Statement (i : Instr) : Prop := opcField i.headWord = i.opcode

theorem Laws.EncodedOpcode.write (p : List Byte) :
    Laws.EncodedOpcode.Statement (.write p) := opcField_cmdWord _ _

theorem Laws.EncodedOpcode.sum :
    Laws.EncodedOpcode.Statement (.sum) := opcField_cmdWord _ _

theorem Laws.EncodedOpcode.reset :
    Laws.EncodedOpcode.Statement (.reset) := opcField_cmdWord _ _

theorem Laws.EncodedOpcode.size :
    Laws.EncodedOpcode.Statement (.size) := opcField_cmdWord _ _

theorem Laws.EncodedOpcode.blockSize :
    Laws.EncodedOpcode.Statement (.blockSize) := opcField_cmdWord _ _

theorem Laws.EncodedOpcode.marshal :
    Laws.EncodedOpcode.Statement (.marshal) := opcField_cmdWord _ _

theorem Laws.EncodedOpcode.unmarshal (p : List Byte) :
    Laws.EncodedOpcode.Statement (.unmarshal p) := opcField_cmdWord _ _

theorem Laws.EncodedOpcode.keccakF (t : Target) :
    Laws.EncodedOpcode.Statement (.keccakF t) := opcField_microWord _ _ _

theorem Laws.EncodedOpcode.round (ri : Fin 24) (t : Target) :
    Laws.EncodedOpcode.Statement (.round ri t) := opcField_microWord _ _ _

theorem Laws.EncodedOpcode.theta (t : Target) :
    Laws.EncodedOpcode.Statement (.theta t) := opcField_microWord _ _ _

theorem Laws.EncodedOpcode.rho (t : Target) :
    Laws.EncodedOpcode.Statement (.rho t) := opcField_microWord _ _ _

theorem Laws.EncodedOpcode.pi (t : Target) :
    Laws.EncodedOpcode.Statement (.pi t) := opcField_microWord _ _ _

theorem Laws.EncodedOpcode.chi (t : Target) :
    Laws.EncodedOpcode.Statement (.chi t) := opcField_microWord _ _ _

theorem Laws.EncodedOpcode.iota (ri : Fin 24) (t : Target) :
    Laws.EncodedOpcode.Statement (.iota ri t) := opcField_microWord _ _ _

theorem Laws.EncodedOpcode.absorbBlock (t : Target) :
    Laws.EncodedOpcode.Statement (.absorbBlock t) := opcField_microWord _ _ _

theorem Laws.EncodedOpcode.pad :
    Laws.EncodedOpcode.Statement (.pad) := opcField_microWord _ _ _

theorem Laws.EncodedOpcode.squeeze (t : Target) :
    Laws.EncodedOpcode.Statement (.squeeze t) := opcField_microWord _ _ _

end Sys2Proof
end

