-- ==== Sys2Proof/Laws/Snapshot.lean ====
section
/-! SUPPORT. The shape of a snapshot, and SNAP_OK as the table of R183 has it. -/

namespace Sys2Proof.Machine

/-- SQUEEZE in SUM returns OUTLEN bytes (R133, R152). -/
theorem State.sumOn_sqz_length (s : State) : s.sumOn.sqz.length = s.outlen := by
  have := Variant.outlen_le_rate s.variant
  have := Variant.rate_lt s.variant
  rw [State.sumOn_sqz]
  change (squeezeOut s.variant.rate s.variant.outlen _).1.length = _
  rw [squeezeOut_variant]
  exact memRead_length _ (by omega)

/-- A snapshot is SNAPLEN bytes (R180). -/
theorem State.snapshot_length {s : State} (h : s.BufOk) : s.snapshot.length = 217 + s.rate := by
  have := h.2
  simp [State.snapshot, snapTag, cfgBytes, State.bufUsed_length h]; omega

/-- The Boolean check of UNMARSHAL is the table of R183. -/
theorem snapOk_iff (v : Variant) (p : List Byte) : snapOk v p = true ↔ SnapGood v p := by
  unfold snapOk
  rw [decide_eq_true_iff]
  constructor
  · rintro ⟨h1, h2, h3, h4, h5⟩
    have hl : 217 ≤ p.length := by simp [Variant.snapLen] at h1; omega
    have g : ∀ k, k < 3 → p.getD (4 + k) 0 = (cfgBytes v).getD k 0 := by
      intro k hk
      rw [← h3]; simp [slice, List.getD, List.getElem?_drop, show 4 + k < 7 by omega]
    exact ⟨h1, by simpa [slice, snapTag, Config.snapVersion] using h2, g 0 (by omega), g 1 (by omega),
      (g 2 (by omega)).trans (by cases v <;> rfl), h4, h5⟩
  · rintro ⟨h1, h2, h3, h4, h5, h6, h7⟩
    have hl : 217 ≤ p.length := by omega
    refine ⟨h1, by simpa [slice, snapTag, Config.snapVersion] using h2, ?_, h6, h7⟩
    have : slice p 4 7 = [p.getD 4 0, p.getD 5 0, p.getD 6 0] := by
      apply List.ext_getElem
      · simp [slice]; omega
      · intro i h1 h2
        simp at h2
        have : i = 0 ∨ i = 1 ∨ i = 2 := by omega
        rcases this with rfl | rfl | rfl <;>
          simp [slice, List.getD, show 4 < p.length by omega, show 5 < p.length by omega, show 6 < p.length by omega]
    rw [this, h3, h4, h5]; cases v <;> rfl

end Sys2Proof.Machine
end

