-- ==== Sys2Proof/Laws/Step.lean ====
section
/-! SUPPORT. What a step can do, said once: the inversion of `step`, of `nextAction` and of its transfers. -/

namespace Sys2Proof.Machine

/-- A step that answers a next state either runs an instruction or goes there directly. -/
theorem step_cases {s t : State} (h : step s = .next t) :
    (∃ i s', s.nextAction = .run i s' ∧ exec i s' = .next t) ∨ s.nextAction = .goto t := by
  unfold step at h
  split at h
  · exact .inl ⟨_, _, ‹_›, h⟩
  · cases h; exact .inr ‹_›
  · cases h

theorem step_of_run {s s' : State} {i : Instr} (h : s.nextAction = .run i s') : step s = exec i s' := by
  simp [step, h]

theorem step_of_goto {s t : State} (h : s.nextAction = .goto t) : step s = .next t := by
  simp [step, h]

theorem step_of_refuse {s : State} {r : Refusal} (h : s.nextAction = .refuse r) : step s = .refused r := by
  simp [step, h]

/-- With no change of rst_n ahead a waiting host changes nothing (R236). -/
theorem State.hostWaits_stuck {s : State} (h : ∀ e ∈ s.host, e.changesRst s.rstN = false) : s.hostWaits = s := by
  have hd : s.host.dropWhile (fun e => !e.changesRst s.rstN) = [] := by simpa using h
  simp only [State.hostWaits, hd]

/-- With a change of rst_n ahead a waiting host goes on with the first one (R230, R238). -/
theorem State.hostWaits_change {s : State} {pre post : List HostEvent} {e : HostEvent} (hh : s.host = pre ++ e :: post)
    (he : e.changesRst s.rstN = true) (hp : ∀ e' ∈ pre, e'.changesRst s.rstN = false) :
    s.hostWaits = s.withHost (e :: post) := by
  have hd : s.host.dropWhile (fun e => !e.changesRst s.rstN) = e :: post := by
    rw [hh, List.dropWhile_append_of_pos (by simpa using hp)]
    simp [he]
  simp only [State.hostWaits, hd]

/-- Waiting moves the host's script at most on to its next change of rst_n. -/
theorem State.hostWaits_eq (s : State) : ∃ h, s.hostWaits = s.withHost h := by
  unfold State.hostWaits
  split
  · exact ⟨s.host, rfl⟩
  · exact ⟨_, rfl⟩

/-- With rst_n high and no reset edge first, the next action is the engine's own. -/
theorem State.nextAction_running {s : State} (h : s.rstN = true) (h' : ∀ e ∈ s.host.head?, e.isRst = false) :
    s.nextAction = s.engineAction := by
  unfold State.nextAction
  split <;> simp_all [HostEvent.isRst]

/-- The next action is to run `i` only with rst_n high and SEQ holding `i` complete. -/
theorem State.nextAction_run {s s' : State} {i : Instr} (h : s.nextAction = .run i s') :
    s.rstN = true ∧ s' = s.withSeq .idle
      ∧ ((∃ w got, s.seq = .payload w got ∧ lenField w ≤ got.length ∧ decodeCommand w got = .ok i)
        ∨ (∃ w, s.seq = .micro w ∧ decodeMicro w = .ok i)) := by
  have hr : s.rstN = true := by
    unfold State.nextAction at h
    split at h <;> first | assumption | cases h
  have he : s.engineAction = .run i s' := by
    unfold State.nextAction at h
    split at h <;> first | exact h | cases h
  unfold State.engineAction at he
  split at he
  · cases he
  · split at he
    · unfold State.runCommand at he
      split at he
      · cases he; exact ⟨hr, rfl, .inl ⟨_, _, ‹_›, ‹_›, ‹_›⟩⟩
      · cases he
    · cases he
  · unfold State.runMicro at he
    split at he
    · cases he; exact ⟨hr, rfl, .inr ⟨_, ‹_›, ‹_›⟩⟩
    · cases he
  · cases he
  · cases he
  · cases he

/-- Going on without running an instruction is the release of hardware reset, or changes only SEQ, rst_n, the
host's script and the host's record. -/
theorem State.nextAction_goto {s t : State} (h : s.nextAction = .goto t) :
    (∃ rest, s.rstN = false ∧ s.host = .rstHigh :: rest ∧ t = (s.withHost rest).hardwareReset)
      ∨ ∃ q n hs o, t = { s with seq := q, rstN := n, host := hs, out := o } ∧ (o = s.out ∨ ∃ d, o = s.out ++ [d]) := by
  have wait : ∃ q n hs o, s.hostWaits = { s with seq := q, rstN := n, host := hs, out := o }
      ∧ (o = s.out ∨ ∃ d, o = s.out ++ [d]) := by
    obtain ⟨hs, hw⟩ := s.hostWaits_eq
    exact ⟨s.seq, s.rstN, hs, s.out, hw, .inl rfl⟩
  have stay : ∃ q n hs o, s = { s with seq := q, rstN := n, host := hs, out := o }
      ∧ (o = s.out ∨ ∃ d, o = s.out ++ [d]) := ⟨s.seq, s.rstN, s.host, s.out, rfl, .inl rfl⟩
  unfold State.nextAction at h
  split at h
  · cases h; exact .inr ⟨_, _, _, _, rfl, .inl rfl⟩
  · cases h; exact .inr ⟨_, _, _, _, rfl, .inl rfl⟩
  · refine .inr ?_
    unfold State.engineAction at h
    split at h
    · cases h
      unfold State.idleTransfer
      split
      · exact ⟨_, _, _, _, rfl, .inl rfl⟩
      all_goals first | exact wait | exact stay
    · split at h
      · unfold State.runCommand at h
        split at h
        · cases h
        · cases h; exact ⟨_, _, _, _, rfl, .inl rfl⟩
      · cases h
        unfold State.payloadTransfer
        split
        · exact ⟨_, _, _, _, rfl, .inl rfl⟩
        · exact ⟨_, _, _, _, rfl, .inl rfl⟩
        all_goals first | exact wait | exact stay
    · unfold State.runMicro at h
      split at h <;> cases h
    · cases h
      unfold State.rspTransfer
      split
      · exact ⟨_, _, _, _, rfl, .inr ⟨_, rfl⟩⟩
      all_goals first | exact wait | exact stay
    · cases h
      unfold State.doutTransfer
      split
      · exact ⟨_, _, _, _, rfl, .inr ⟨_, rfl⟩⟩
      all_goals first | exact wait | exact stay
    · cases h; exact ⟨_, _, _, _, rfl, .inl rfl⟩
  · cases h; exact .inl ⟨_, ‹_›, ‹_›, rfl⟩
  · cases h; exact .inr ⟨_, _, _, _, rfl, .inl rfl⟩
  · cases h; exact .inr wait

/-- One step of a run (Host/Core.lean's `run`, on this machine). -/
theorem core_run_step {s t : State} (k : Nat) (h : step s = .next t) : core.run (k + 1) s = core.run k t := by
  simp only [Host.Core.run, show core.step s = .next t from h]

theorem core_run_zero (s : State) : core.run 0 s = .next s := rfl

end Sys2Proof.Machine
end

