-- ==== Sys2Proof/Tests/Slice0.lean ====
section
/-! SUPPORT. The model's own tests and the witnesses of the statements' hypotheses. Every expected value is the
spec's: a word of spec/30_encoding.md, or a vector S-, V- or P- of spec/95_test_vectors.md, named in the test's
docstring. -/

namespace Sys2Proof.Tests

open Sys2Proof Sys2Proof.Machine

/-! ### Helpers -/

/-- The `n` bytes of a hex number, first byte first. -/
def hexBytes (n v : Nat) : List Byte := (List.range n).map fun i => BitVec.ofNat 8 (v / 256 ^ (n - 1 - i))

/-- `n` copies of the byte 0x61 (R72: `fill(0x61, n)`). -/
def fill (n : Nat) : List Byte := List.replicate n 0x61

/-- The ASCII bytes of "abc" (R11). -/
def abc : List Byte := [0x61, 0x62, 0x63]

/-- A lane array by linear index. -/
def lanesAt (l : List Lane) : Lanes := .ofFn fun x y => l.getD (laneIndex x y) 0

/-- The input of V-40-2: lane i = i. -/
def countLanes : Lanes := .ofFn fun x y => BitVec.ofNat 64 (laneIndex x y)

/-- What `f` reads from the next state; nothing after a fault or a refusal. -/
def next? {α : Type} (o : Host.Outcome State Fault Refusal) (f : State → α) : Option α :=
  match o with
  | .next t => some (f t)
  | .fault _ => none
  | .refused _ => none

/-- After reset with `n` bytes 0x61 buffered. -/
def buffered (v : Variant) (n : Nat) : State :=
  { State.resetOf v with buf := List.replicate v.rate 0x61, bufLen := BitVec.ofNat 8 n, absorbed := BitVec.ofNat 64 n }

/-- After reset with `A` in place of both lane arrays. -/
def lanesState (A : Lanes) : State := { State.resetOf .keccak256 with a := A, scratch := A }

/-- After reset with SEQ and the host's script given. -/
def portState (q : Seq) (h : List HostEvent) : State := { State.resetOf .keccak256 with seq := q, host := h }

/-- The snapshot of V-43-1: K256 after reset and `WRITE "a"`. -/
def snapA : List Byte :=
  [0x4B, 0x45, 0x43, 0x01, 0x88, 0x20, 0x01, 0x00] ++ [0x01, 0, 0, 0, 0, 0, 0, 0] ++ List.replicate 200 0
    ++ [0x01] ++ [0x61] ++ List.replicate 135 0

/-! ### WellFormed: the check refuses an ill-formed term -/

/-- R61: LEN is at most 2^24 - 1; a payload one longer is refused, for both commands that carry one. -/
theorem test_wf_refuses_long_payload :
    (Instr.write (List.replicate (2 ^ 24) 0)).wf = false ∧ (Instr.unmarshal (List.replicate (2 ^ 24) 0)).wf = false
      ∧ (Instr.write (List.replicate (2 ^ 24 - 1) 0x61)).wf = true := by
  refine ⟨?_, ?_, ?_⟩ <;> simp only [Instr.wf, Instr.payload, List.length_replicate] <;> decide

/-- R61, V-42-1: `WRITE fill(0x61, 2^24 - 1)` is the word FFFFFF01. -/
theorem test_longest_write_word : (Instr.write (fill (2 ^ 24 - 1))).headWord = 0xFFFFFF01 := by
  simp only [Instr.headWord, fill, List.length_replicate]; decide

/-! ### Decoding: every constructor's word, written out from R61 and R66 -/

/-- WRITE "abc": LEN = 3, OPC = 0x01 (R65, V-42-1). -/
theorem test_decode_write : decodeCommand 0b00000000000000000000001100000001 abc = .ok (.write abc) := by decide

/-- SUM: LEN = 0, OPC = 0x02 (R65, V-42-1). -/
theorem test_decode_sum : decodeCommand 0b00000000000000000000000000000010 [] = .ok .sum := by decide

/-- RESET: LEN = 0, OPC = 0x03 (R65). -/
theorem test_decode_reset : decodeCommand 0b00000000000000000000000000000011 [] = .ok .reset := by decide

/-- SIZE: LEN = 0, OPC = 0x04 (R65). -/
theorem test_decode_size : decodeCommand 0b00000000000000000000000000000100 [] = .ok .size := by decide

/-- BLOCKSIZE: LEN = 0, OPC = 0x05 (R65). -/
theorem test_decode_blockSize : decodeCommand 0b00000000000000000000000000000101 [] = .ok .blockSize := by decide

/-- MARSHAL: LEN = 0, OPC = 0x06 (R65). -/
theorem test_decode_marshal : decodeCommand 0b00000000000000000000000000000110 [] = .ok .marshal := by decide

/-- UNMARSHAL of 353 bytes: LEN = 353, OPC = 0x07 (R65, V-42-1). -/
theorem test_decode_unmarshal :
    decodeCommand 0b00000000000000010110000100000111 snapA = .ok (.unmarshal snapA) := by decide +kernel

/-- KECCAK_F.S: T = 1, RI = 0, MOPC = 0x80 (R66). -/
theorem test_decode_keccakF : decodeMicro 0b00000000000000000010000010000000 = .ok (.keccakF .s) := by decide

/-- ROUND.A 23: T = 0, RI = 23, MOPC = 0x81 (R66). -/
theorem test_decode_round : decodeMicro 0b00000000000000000001011110000001 = .ok (.round 23 .a) := by decide

/-- THETA.A: T = 0, RI = 0, MOPC = 0x82 (R66). -/
theorem test_decode_theta : decodeMicro 0b00000000000000000000000010000010 = .ok (.theta .a) := by decide

/-- RHO.S: T = 1, RI = 0, MOPC = 0x83 (R66). -/
theorem test_decode_rho : decodeMicro 0b00000000000000000010000010000011 = .ok (.rho .s) := by decide

/-- PI.A: T = 0, RI = 0, MOPC = 0x84 (R66). -/
theorem test_decode_pi : decodeMicro 0b00000000000000000000000010000100 = .ok (.pi .a) := by decide

/-- CHI.S: T = 1, RI = 0, MOPC = 0x85 (R66). -/
theorem test_decode_chi : decodeMicro 0b00000000000000000010000010000101 = .ok (.chi .s) := by decide

/-- IOTA.S 5: T = 1, RI = 5, MOPC = 0x86 (R66). -/
theorem test_decode_iota : decodeMicro 0b00000000000000000010010110000110 = .ok (.iota 5 .s) := by decide

/-- ABSORB_BLOCK.S: T = 1, RI = 0, MOPC = 0x88 (R66). -/
theorem test_decode_absorbBlock : decodeMicro 0b00000000000000000010000010001000 = .ok (.absorbBlock .s) := by decide

/-- PAD: T = 0, RI = 0, MOPC = 0x89 (R66). -/
theorem test_decode_pad : decodeMicro 0b00000000000000000000000010001001 = .ok .pad := by decide

/-- SQUEEZE.S: T = 1, RI = 0, MOPC = 0x8A (R66). -/
theorem test_decode_squeeze : decodeMicro 0b00000000000000000010000010001010 = .ok (.squeeze .s) := by decide

/-- V-42-7: words that encode no operation, and the reserved or ill-formed MICRO words of R66. -/
theorem test_decode_refuses :
    decodeCommand 0x00000000 [] = .error .reservedOpcode ∧ decodeCommand 0x00000009 [] = .error .reservedOpcode
      ∧ decodeCommand 0x00000308 abc = .error .reservedOpcode ∧ decodeCommand 0x00000080 [] = .error .reservedOpcode
      ∧ decodeCommand 0x000000FF [] = .error .reservedOpcode ∧ decodeCommand 0x00000102 [0] = .error .lengthNotZero
      ∧ decodeCommand 0x00000104 [0] = .error .lengthNotZero
      ∧ decodeCommand 0x00000206 [0, 0] = .error .lengthNotZero
      ∧ decodeMicro 0x00000087 = .error .reservedMicro ∧ decodeMicro 0x0000008B = .error .reservedMicro
      ∧ decodeMicro 0x00001881 = .error .roundIndex ∧ decodeMicro 0x00000182 = .error .microBits
      ∧ decodeMicro 0x00004080 = .error .microBits ∧ decodeMicro 0x00002089 = .error .microBits := by decide

/-- R70, R45: a byte stream of two commands decodes one after the other, low byte first. -/
theorem test_decode_stream :
    decode [0x01, 0x03, 0x00, 0x00, 0x61, 0x62, 0x63, 0x02, 0x00, 0x00, 0x00]
      = .ok (.write abc, [0x02, 0x00, 0x00, 0x00]) ∧ encode .sum = [0x02, 0x00, 0x00, 0x00] := by decide

/-- The opcode table's words: a CMD word takes LEN payload bytes of 0, a MICRO word none. -/
theorem test_decode_table :
    decodeTableWord 32 0x00000301 = some (.write [0, 0, 0]) ∧ decodeTableWord 32 0x81 = some (.round 0 .a)
      ∧ decodeTableWord 32 0x00 = none ∧ decodeTableWord 32 0x87 = none := by decide

/-! ### The host commands -/

/-- V-42-2: K256 `WRITE "abc"` from reset. -/
theorem test_write_abc :
    next? (exec (.write abc) (.resetOf .keccak256)) (fun t => (t.arch, t.reply))
      = some (⟨Lanes.zero, abc, 3, .absorbing, 3, .keccak256⟩, some (0x00000000, [])) := by decide +kernel

/-- P2: K512 `WRITE fill(0x61, 73)` absorbs a block at its 72nd byte (V-41-4) and buffers one. -/
theorem test_write_block :
    next? (exec (.write (fill 73)) (.resetOf .keccak512)) (fun t => (t.a.get 0 0, t.a.get 4 4, t.bufLen, t.bufUsed, t.absorbed))
      = some (0x2DE39466EE11CA3B, 0xD77DC9DDB32FB3B9, 1, [0x61], 73) := by decide +kernel

/-- S-1: K256, the empty message. -/
theorem test_sum_empty :
    next? (exec .sum (.resetOf .keccak256)) State.reply
      = some (some (0x00002000,
        hexBytes 32 0xc5d2460186f7233c927e7db2dcc703c0e500b653ca82273b7bfad8045d85a470)) := by decide +kernel

/-- V-41-2: K512 with RATE - 1 = 71 bytes buffered; the state stays. -/
theorem test_sum_boundary :
    next? (exec .sum (buffered .keccak512 71)) (fun t => (t.reply, t.a, t.bufLen))
      = some (some (0x00004000,
        hexBytes 64 0xa57dce7da8ec781665705f3d69310beaaa5b0cae0c9c34c9b1c5b7238bbd2ce385bbe2f37694d2b8e9a55eb889eecb80d74ff4f9086067b47fd3f43c16c0b506),
        Lanes.zero, 71) := by decide +kernel

/-- R154, V-42-6: RESET empties the instance and answers OK. -/
theorem test_reset :
    next? (exec .reset { buffered .keccak256 5 with a := countLanes }) (fun t => (t.arch, t.reply))
      = some (⟨Lanes.zero, [], 0, .absorbing, 0, .keccak256⟩, some (0x00000000, [])) := by decide +kernel

/-- S-2: SIZE. -/
theorem test_size :
    next? (exec .size (.resetOf .keccak256)) State.reply = some (some (0x00000100, [0x20]))
      ∧ next? (exec .size (.resetOf .keccak512)) State.reply = some (some (0x00000100, [0x40])) := by decide +kernel

/-- S-2: BLOCKSIZE. -/
theorem test_blockSize :
    next? (exec .blockSize (.resetOf .keccak256)) State.reply = some (some (0x00000100, [0x88]))
      ∧ next? (exec .blockSize (.resetOf .keccak512)) State.reply = some (some (0x00000100, [0x48])) := by
  decide +kernel

/-- V-43-1: MARSHAL of K256 with "a" buffered. -/
theorem test_marshal_k256 :
    next? (exec .marshal (buffered .keccak256 1)) State.reply = some (some (0x00016100, snapA)) := by decide +kernel

/-- V-43-2: MARSHAL of K512 from reset with lane 0 of P6 in A: its bytes 0..23. -/
theorem test_marshal_lanes :
    next? (exec .marshal { State.resetOf .keccak512 with a := lanesAt [0xACDE988A0B7F95E8], absorbed := 0x110 })
        (fun t => t.reply.map fun r => (r.1, r.2.take 24))
      = some (some (0x00012100, [0x4B, 0x45, 0x43, 0x01, 0x48, 0x40, 0x01, 0x00, 0x10, 0x01, 0, 0, 0, 0, 0, 0,
        0xE8, 0x95, 0x7F, 0x0B, 0x8A, 0x98, 0xDE, 0xAC])) := by decide +kernel

/-- P3: UNMARSHAL of V-43-1 over a used instance. -/
theorem test_unmarshal_restores :
    next? (exec (.unmarshal snapA) { buffered .keccak256 3 with a := countLanes })
        (fun t => (t.arch, t.reply))
      = some (⟨Lanes.zero, [0x61], 1, .absorbing, 1, .keccak256⟩, some (0x00000000, [])) := by decide +kernel

/-- V-43-3: every failing check answers CORRUPT_STATE and changes nothing. -/
theorem test_unmarshal_rejects :
    ([[], snapA.take 4, snapA.set 4 0x48, snapA.set 5 0x40, snapA.set 6 0x06, snapA.set 3 0x02, snapA.set 7 0x01,
        snapA.set 216 0x88].all fun p =>
      next? (exec (.unmarshal p) (buffered .keccak256 3)) id
        == some { buffered .keccak256 3 with seq := .respond 0x00000001 [] }) = true := by decide +kernel

/-! ### The micro-operations -/

/-- V-40-1: KECCAK_F of the all-zero state. -/
theorem test_keccakF :
    next? (exec (.keccakF .s) (lanesState Lanes.zero)) (fun t => (t.scratch, t.a))
      = some ((⟨⟨0xF1258F7940E1DDE7, 0x84D5CCF933C0478A, 0xD598261EA65AA9EE, 0xBD1547306F80494D, 0x8B284E056253D057⟩,
       ⟨0xFF97A42D7F8E6FD4, 0x90FEE5A0A44647C4, 0x8C5BDA0CD6192E76, 0xAD30A6F71B19059C, 0x30935AB7D08FFC64⟩,
       ⟨0xEB5AA93F2317D635, 0xA9A6E6260D712103, 0x81A57C16DBCF555F, 0x43B831CD0347C826, 0x01F22F1A11A5569F⟩,
       ⟨0x05E5635A21D9AE61, 0x64BEFEF28CC970F2, 0x613670957BC46611, 0xB87C5A554FD00ECB, 0x8C3EE88A1CCF32C8⟩,
       ⟨0x940C7922AE3A2614, 0x1841F924A2C509E4, 0x16F53526E70465C2, 0x75F644E97F30A13B, 0xEAF1FF7B5CECA249⟩⟩ : Lanes),
      Lanes.zero) := by decide +kernel

/-- V-40-2, V-40-7: ROUND 0 on lane i = i, its lanes 0 and 24; R31: RND advances. -/
theorem test_round :
    next? (exec (.round 0 .a) (lanesState countLanes)) (fun t => (t.a.get 0 0, t.a.get 4 4, t.rnd))
      = some (0x000018000000001B, 0x0B00000000000074, 1) := by decide +kernel

/-- V-40-2: THETA on lane i = i. -/
theorem test_theta :
    next? (exec (.theta .a) (lanesState countLanes)) State.a = some (lanesAt
      [0x1A, 0x09, 0x0D, 0x1D, 0x2F, 0x1F, 0x0E, 0x08, 0x16, 0x22, 0x10, 0x03, 0x03, 0x13, 0x25, 0x15, 0x18, 0x1E,
       0x0C, 0x38, 0x0E, 0x1D, 0x19, 0x09, 0x33]) := by decide +kernel

/-- V-40-3: THETA of the single bit A[0][0] = 1. -/
theorem test_theta_bit :
    next? (exec (.theta .s) (lanesState (lanesAt [1]))) State.scratch = some (lanesAt
      [1, 1, 0, 0, 2, 0, 1, 0, 0, 2, 0, 1, 0, 0, 2, 0, 1, 0, 0, 2, 0, 1, 0, 0, 2]) := by decide +kernel

/-- V-40-4: RHO with every lane 1. -/
theorem test_rho :
    next? (exec (.rho .a) (lanesState (.ofFn fun _ _ => 1))) State.a = some ((⟨⟨0x0000000000000001, 0x0000000000000002, 0x4000000000000000, 0x0000000010000000, 0x0000000008000000⟩,
       ⟨0x0000001000000000, 0x0000100000000000, 0x0000000000000040, 0x0080000000000000, 0x0000000000100000⟩,
       ⟨0x0000000000000008, 0x0000000000000400, 0x0000080000000000, 0x0000000002000000, 0x0000008000000000⟩,
       ⟨0x0000020000000000, 0x0000200000000000, 0x0000000000008000, 0x0000000000200000, 0x0000000000000100⟩,
       ⟨0x0000000000040000, 0x0000000000000004, 0x2000000000000000, 0x0100000000000000, 0x0000000000004000⟩⟩ : Lanes)) := by
  decide +kernel

/-- V-40-5: PI on lane i = i, by the table of where each lane moves. -/
theorem test_pi :
    next? (exec (.pi .a) (lanesState countLanes)) State.a = some (lanesAt
      [0, 6, 12, 18, 24, 3, 9, 10, 16, 22, 1, 7, 13, 19, 20, 4, 5, 11, 17, 23, 2, 8, 14, 15, 21]) := by decide +kernel

/-- V-40-6: CHI on row y = 0, its first and last inputs. -/
theorem test_chi :
    next? (exec (.chi .a) (lanesState (lanesAt [0xF0F0, 0xFF00, 0xCCCC]))) State.a
        = some (lanesAt [0xF03C, 0xFF00, 0xCCCC, 0xF0F0, 0x0F00])
      ∧ next? (exec (.chi .s) (lanesState (lanesAt [1]))) State.scratch = some (lanesAt [1, 0, 0, 1]) := by
  decide +kernel

/-- V-40-7: IOTA on the all-zero state. -/
theorem test_iota :
    next? (exec (.iota 0 .a) (lanesState Lanes.zero)) State.a = some (lanesAt [0x0000000000000001])
      ∧ next? (exec (.iota 23 .s) (lanesState Lanes.zero)) State.scratch = some (lanesAt [0x8000000080008008]) := by
  decide +kernel

/-- V-41-4: ABSORB_BLOCK of fill(0x61, 136), its lanes (0,0) and (4,4). -/
theorem test_absorbBlock :
    next? (exec (.absorbBlock .a) { State.resetOf .keccak256 with blk := fill 136 }) (fun t => (t.a.get 0 0, t.a.get 4 4))
      = some (0xD498EC4C50D2E1F1, 0x2BAB2CE9EDD14D81) := by decide +kernel

/-- V-41-1: PAD of the empty buffer and of 134 bytes. -/
theorem test_pad :
    next? (exec .pad (buffered .keccak256 0)) State.blk = some (0x01 :: (List.replicate 134 0 ++ [0x80]))
      ∧ next? (exec .pad (buffered .keccak256 134)) State.blk = some (fill 134 ++ [0x01, 0x80]) := by decide +kernel

/-- V-41-1, R132: PAD at the boundary n = RATE - 1, for both variants. -/
theorem test_pad_boundary :
    next? (exec .pad (buffered .keccak256 135)) State.blk = some (fill 135 ++ [0x81])
      ∧ next? (exec .pad (buffered .keccak512 71)) State.blk = some (fill 71 ++ [0x81]) := by decide +kernel

/-- V-41-3: SQUEEZE of the padded empty message's state, K256. -/
theorem test_squeeze :
    next? (exec (.squeeze .s) (lanesState (lanesAt
        [0x3C23F7860146D2C5, 0xC003C7DCB27D7E92, 0x3B2782CA53B600E5, 0x70A4855D04D8FA7B]))) State.sqz
      = some (hexBytes 32 0xc5d2460186f7233c927e7db2dcc703c0e500b653ca82273b7bfad8045d85a470) := by decide +kernel

/-! ### The step and the ports -/

/-- R234: from reset the engine takes a command word. -/
theorem test_step_takes_word :
    next? (step (portState .idle [.cmdWord 0x00000301])) (fun t => (t.seq, t.host))
      = some (.payload 0x00000301 [], []) := by decide +kernel

/-- P4 step 2: the decoder's answer to SIZE with LEN 1, once its byte is consumed. -/
theorem test_step_illegal :
    next? (step (portState (.payload 0x00000104 [0]) [])) State.reply = some (some (0x00000002, [])) := by
  decide +kernel

/-- V-70-1: a WRITE cut off by rst_n gives no response, and its release leaves the reset state. -/
theorem test_step_reset :
    next? (step (portState (.payload 0x0000C801 (fill 10)) [.rstLow, .rstHigh])) (fun t => (t.rstN, t.reply))
        = some (false, none)
      ∧ next? (step { portState (.payload 0x0000C801 (fill 10)) [.rstHigh] with rstN := false }) id
        = some (State.resetOf .keccak256) := by decide +kernel

/-- R236: bytes left over from a word sent early stay, and block, in front of a rise of rst_n that is no reset; a fall
of rst_n gets past them. -/
theorem test_step_stuck :
    next? (step (portState .idle [.dinByte 9, .rstHigh, .cmdWord 2])) id
        = some (portState .idle [.dinByte 9, .rstHigh, .cmdWord 2])
      ∧ next? (step (portState .idle [.dinByte 9, .rstHigh, .rstLow, .rstHigh])) State.host
        = some [.rstLow, .rstHigh] := by decide +kernel

/-- A placed table word is what the next step runs: KECCAK_F.A, and SIZE. -/
theorem test_step_placed :
    next? (step (State.reset.withFetchWord 32 0x80)) (fun t => t.a.get 0 0) = some 0xF1258F7940E1DDE7
      ∧ next? (step (State.reset.withFetchWord 32 0x04)) State.reply = some (some (0x00000100, [0x20])) := by
  decide +kernel

/-! ### Script forms (R72, R73, R74) -/

/-- R72, R73, R74: written forms and expansions. -/
theorem test_script_text :
    scriptText (.write abc) = "WRITE hex:616263" ∧ scriptText (.write []) = "WRITE \"\""
      ∧ scriptText (.round 23 .s) = "ROUND.S 23" ∧ hashScript abc = [.reset, .write abc, .sum]
      ∧ writeChunks 2 4 abc = [.write [0x61, 0x62], .write [0x63]] := by decide +kernel

/-! ### Witnesses: for each statement with hypotheses, states and operands that meet them, at the ends of the
ranges its clauses name -/

/-- The invariant of `buffered` at both ends of BUFLEN's range, and of a port state. -/
theorem buffered_inv (v : Variant) (n : Nat) (h : n < v.rate) : (buffered v n).Inv := by
  have hr := Variant.rate_lt v
  refine ⟨⟨List.length_replicate, ?_⟩, rfl, Nat.zero_lt_succ _, List.length_replicate, trivial⟩
  change (BitVec.ofNat 8 n).toNat < v.rate
  simp; omega

theorem portState_inv (q : Seq) (h : List HostEvent) (hq : SeqOk q) : (portState q h).Inv :=
  ⟨⟨List.length_replicate, Nat.zero_lt_succ _⟩, rfl, Nat.zero_lt_succ _, List.length_replicate, hq⟩

theorem witness_DecodeOfEncode :
    (Instr.write abc).wf = true ∧ (Instr.write abc).hostIssuable = true
      ∧ (Instr.round 23 .s).wf = true ∧ (Instr.round 23 .s).hostIssuable = false := by decide

theorem witness_EncodeOfDecode :
    decodeCommand 0x00000301 abc = .ok (.write abc) ∧ decodeMicro 0x00001786 = .ok (.iota 23 .a) := by decide

/-- Each clause at its ends: OPC 0x00, 0x08 and 0xFF; OPC 0x02 and 0x06 with LEN 1; OPC 0x01, 0x02, 0x06, 0x07. -/
theorem witness_CommandDecodingIsTotal :
    ([(0x00000000, 0), (0x00000108, 1), (0x000000FF, 0)] : List (Word × Nat)).all
        (fun e => decide (lenField e.1 = e.2 ∧ (opcField e.1 < 0x01 ∨ 0x07 < opcField e.1))) = true
      ∧ ([(0x00000102, 1), (0x00000106, 1)] : List (Word × Nat)).all
        (fun e => decide (lenField e.1 = e.2 ∧ ¬ (opcField e.1 < 0x01 ∨ 0x07 < opcField e.1)
          ∧ 0x02 ≤ opcField e.1 ∧ opcField e.1 ≤ 0x06 ∧ lenField e.1 ≠ 0)) = true
      ∧ ([(0x00000301, 3), (0x00000002, 0), (0x00000006, 0), (0x00000407, 4)] : List (Word × Nat)).all
        (fun e => decide (lenField e.1 = e.2 ∧ ¬ (opcField e.1 < 0x01 ∨ 0x07 < opcField e.1)
          ∧ ¬ (0x02 ≤ opcField e.1 ∧ opcField e.1 ≤ 0x06 ∧ lenField e.1 ≠ 0))) = true := by decide

theorem witness_StepRunsDecodedInstruction :
    ((portState (.payload 0x00000301 abc) []).Running ∧ decodeCommand 0x00000301 abc = .ok (.write abc))
      ∧ ((portState (.micro 0x00002080) [.takeRsp]).Running ∧ decodeMicro 0x00002080 = .ok (.keccakF .s))
      ∧ decodeTableWord 32 0x00000301 = some (.write [0, 0, 0]) ∧ decodeTableWord 32 0x89 = some .pad :=
  ⟨⟨⟨rfl, by simp [portState, State.resetOf]⟩, by decide⟩,
    ⟨⟨rfl, by simp [portState, HostEvent.isRst]⟩, by decide⟩, by decide, by decide⟩

/-- The four channels; the second with the last payload byte missing, the others with and without more to come. -/
theorem witness_ChannelTransfers :
    (portState .idle [.cmdWord 0x00000301]).rstN = true
      ∧ (portState .idle [.cmdWord 0x00000301]).host = .cmdWord 0x00000301 :: []
      ∧ (portState (.payload 0x00000301 [0x61, 0x62]) [.dinByte 0x63]).host = .dinByte 0x63 :: []
      ∧ ([0x61, 0x62] : List Byte).length < lenField 0x00000301
      ∧ (portState (.respond 0x00000100 [0x20]) [.takeRsp, .takeDout]).host = .takeRsp :: [.takeDout]
      ∧ (portState (.respond 0x00000000 []) [.takeRsp]).host = .takeRsp :: []
      ∧ (portState (.dout [0x20]) [.takeDout]).host = .takeDout :: [] := by decide +kernel

/-- rst_n high in each of the four stages, and a delivery of each kind. -/
theorem witness_PortSignals :
    (portState .idle []).rstN = true ∧ (portState .idle []).cmdReady = true
      ∧ (portState (.payload 0x00000101 []) []).dinReady = true
      ∧ (portState (.payload 0x00000101 [0x61]) []).dinReady = false
      ∧ next? (step (portState (.respond 0 []) [.takeRsp])) State.out = some ((portState .idle []).out ++ [.word 0])
      ∧ next? (step (portState (.dout [7]) [.takeDout])) State.out = some ((portState .idle []).out ++ [.byte 7]) := by
  decide +kernel

theorem witness_EngineWaits :
    ((portState .idle []).host = [] ∧ (portState .idle []).seq = .idle)
      ∧ (portState (.payload 0x00000101 []) []).seq = .payload 0x00000101 []
      ∧ ([] : List Byte).length < lenField 0x00000101
      ∧ (portState (.respond 0 []) []).seq = .respond 0 [] ∧ (portState (.dout [1]) []).seq = .dout (1 :: [])
      ∧ (portState (.dout [1]) [.cmdWord 2, .takeDout]).host = .cmdWord 2 :: [.takeDout]
      ∧ ([.takeDout] : List HostEvent).all (fun e => decide (e ≠ .rstLow)) = true := by decide +kernel

/-- Each of the four waits, with a rise of rst_n ahead and with a fall ahead. -/
theorem witness_OnlyResetEndsAWait :
    let h : List HostEvent := [.dinByte 9, .rstHigh, .cmdWord 2]
    (portState .idle h).rstN = true ∧ (portState .idle h).host = .dinByte 9 :: [.rstHigh, .cmdWord 2]
      ∧ (HostEvent.dinByte 9).isRst = false ∧ (portState .idle h).seq = .idle
      ∧ (portState (.payload 0x00000101 []) [.takeRsp]).seq = .payload 0x00000101 []
      ∧ ([] : List Byte).length < lenField 0x00000101
      ∧ (portState (.respond 0 []) h).seq = .respond 0 [] ∧ (portState (.dout [1]) h).seq = .dout (1 :: [])
      ∧ HostEvent.dinByte 9 ≠ .takeRsp ∧ HostEvent.dinByte 9 ≠ .takeDout
      ∧ ([.rstHigh, .cmdWord 2] : List HostEvent).all (fun e => decide (e ≠ .rstLow)) = true
      ∧ ([.rstHigh, .rstLow, .rstHigh] : List HostEvent) = [.rstHigh] ++ .rstLow :: [.rstHigh]
      ∧ ([.rstHigh] : List HostEvent).all (fun e => decide (e ≠ .rstLow)) = true := by decide +kernel

theorem witness_EarlyCommandWordIsPayload :
    (portState (.payload 0x00000501 [0x61]) [.cmdWord 0x00000002]).rstN = true
      ∧ (portState (.payload 0x00000501 [0x61]) [.cmdWord 0x00000002]).seq = .payload 0x00000501 [0x61]
      ∧ ([0x61] : List Byte).length < lenField 0x00000501
      ∧ (portState (.payload 0x00000501 [0x61]) [.cmdWord 0x00000002]).host = .cmdWord 0x00000002 :: [] := by
  decide +kernel

/-- A reserved OPC at both ends, and a LEN where none is allowed; a byte missing, and none missing. -/
theorem witness_IllegalCommandsAreAnswered :
    (opcField 0x00000100 < 0x01 ∧ 0x07 < opcField 0x00000308)
      ∧ (0x02 ≤ opcField 0x00000102 ∧ opcField 0x00000102 ≤ 0x06 ∧ lenField 0x00000102 ≠ 0)
      ∧ ([] : List Byte).length < lenField 0x00000102 ∧ ([0] : List Byte).length = lenField 0x00000102
      ∧ (portState (.payload 0x00000102 [0]) []).Running
      ∧ (abc.length = lenField 0x00000301 ∧ opcField 0x00000301 = 0x01)
      ∧ (([] : List Byte).length = lenField 0x00000007 ∧ opcField 0x00000007 = 0x07) :=
  ⟨by decide, by decide, by decide, by decide, ⟨rfl, by simp [portState]⟩, by decide, by decide⟩

theorem witness_HardwareReset :
    ((portState (.dout [1]) [.rstLow]).rstN = true ∧ (portState (.dout [1]) [.rstLow]).host = .rstLow :: [])
      ∧ ({ portState (.dout [1]) [.rstHigh] with rstN := false } : State).host = .rstHigh :: [] := by decide +kernel

/-- A step from a state that meets the invariant: SUM at the end of BUFLEN's range, and a transfer. -/
theorem witness_StepKeepsInvariant :
    ({ buffered .keccak512 71 with seq := .payload 0x00000002 [] } : State).Inv
      ∧ (next? (step { buffered .keccak512 71 with seq := .payload 0x00000002 [] }) State.variant = some .keccak512)
      ∧ (portState (.payload 0x00000301 [1, 2]) [.dinByte 3]).Inv
      ∧ next? (step (portState (.payload 0x00000301 [1, 2]) [.dinByte 3])) State.rnd = some 0 :=
  ⟨⟨(buffered_inv .keccak512 71 (by decide)).bufOk, rfl, by decide, List.length_replicate, Nat.zero_le _⟩,
    by decide +kernel, portState_inv _ _ (by simp [SeqOk, lenField]), by decide +kernel⟩

theorem witness_StepKeepsSettled :
    (portState (.payload 0x00000002 []) []).Settled
      ∧ next? (step (portState (.payload 0x00000002 []) [])) State.rnd = some 0 :=
  ⟨⟨rfl, fun _ h => by cases h⟩, by decide +kernel⟩

theorem witness_StepNeverStops :
    (portState (.payload 0x00000301 abc) []).Inv ∧ (portState (.payload 0x00000301 abc) []).Settled :=
  ⟨portState_inv _ _ (by simp [SeqOk, lenField, abc]), rfl, fun _ h => by cases h⟩

theorem witness_ConfigurationAndRecord :
    next? (step (portState (.dout [0x20]) [.takeDout])) State.out = some [.byte 0x20] := by decide +kernel

/-- Each of the four events changes the observable state: WRITE, RESET, UNMARSHAL, and the release of rst_n. -/
theorem witness_OnlyThreeCommandsAndResetChangeState :
    let used := buffered .keccak256 3
    let w : State := { used with seq := .payload 0x00000101 [0x61] }
    let r : State := { used with seq := .payload 0x00000003 [] }
    let u : State := { used with seq := .payload 0x00016107 snapA }
    let h : State := { used with rstN := false, host := [.rstHigh] }
    [w, r, u, h].all (fun s => next? (step s) (fun t => decide (t.arch ≠ s.arch)) == some true) = true
      ∧ (w.Inv ∧ r.Inv ∧ u.Inv ∧ h.Inv) ∧ (w.Settled ∧ r.Settled ∧ u.Settled ∧ h.Settled) := by
  have hb := (buffered_inv .keccak256 3 (by decide)).bufOk
  have hi (s : State) (h1 : s.BufOk) (h2 : s.phase = .absorbing) (h3 : s.rnd = 0) (h4 : s.blk.length = s.rate)
      (h5 : SeqOk s.seq) : s.Inv := ⟨h1, h2, by simp [h3], h4, h5⟩
  refine ⟨by decide +kernel, ⟨hi _ hb rfl rfl List.length_replicate (by simp [SeqOk, lenField]),
    hi _ hb rfl rfl List.length_replicate (by simp [SeqOk, lenField]),
    hi _ hb rfl rfl List.length_replicate ?_, hi _ hb rfl rfl List.length_replicate trivial⟩,
    ⟨rfl, fun _ h => by cases h⟩, ⟨rfl, fun _ h => by cases h⟩, ⟨rfl, fun _ h => by cases h⟩,
    ⟨rfl, fun _ h => by cases h⟩⟩
  change snapA.length ≤ 353
  decide +kernel

/-- WRITE, whose response has no payload, and SUM, whose response has 32 payload bytes. -/
theorem witness_TransactionIsTheCommand :
    (Instr.write abc).wf = true ∧ (Instr.write abc).hostIssuable = true
      ∧ (portState .idle []).rstN = true ∧ (portState .idle []).seq = .idle
      ∧ (portState .idle (commandEvents (.write abc) ++ takeEvents 0 ++ [])).host
          = commandEvents (.write abc) ++ takeEvents 0 ++ []
      ∧ next? (exec (.write abc) (portState .idle (commandEvents (.write abc) ++ takeEvents 0 ++ []))) State.reply
          = some (some (0x00000000, []))
      ∧ next? (exec .sum (portState .idle (commandEvents .sum ++ takeEvents 32 ++ [.cmdWord 3])))
          (fun t => t.reply.map fun r => (r.1, r.2.length)) = some (some (0x00002000, 32)) := by decide +kernel

theorem witness_IllegalTransaction :
    ((portState .idle []).rstN = true ∧ (portState .idle []).seq = .idle) ∧
    ([0] : List Byte).length = lenField 0x00000104 ∧ decodeCommand 0x00000104 [0] = .error .lengthNotZero
      ∧ (portState .idle (rawEvents 0x00000104 [0] ++ takeEvents 0 ++ [])).host
          = rawEvents 0x00000104 [0] ++ takeEvents 0 ++ [] := by decide +kernel

/-- The premise `BufOk` of WriteAbsorbsFullBlocks, ChunkingLaw, SumReturnsDigest, SumDoesNotDisturb,
SumIsItsMicroOperations, EveryCommandResponds, QueriesAreIdempotent, MarshalLayout and PadGivesOneBlock, at both
ends of BUFLEN's range and for both variants; with it the last clause of WriteAbsorbsFullBlocks (a payload that
stays below RATE), the clauses of PadGivesOneBlock (n = 0 and n = RATE - 2 against n = RATE - 1), PHASE for
MarshalLayout, and the commands that EveryCommandResponds and QueriesAreIdempotent name. -/
theorem witness_BufOk :
    ((buffered .keccak256 0).BufOk ∧ (buffered .keccak256 134).BufOk ∧ (buffered .keccak256 135).BufOk
        ∧ (buffered .keccak512 0).BufOk ∧ (buffered .keccak512 70).BufOk ∧ (buffered .keccak512 71).BufOk)
      ∧ (0 + 135 < (buffered .keccak256 0).rate ∧ 135 + 0 < (buffered .keccak256 135).rate)
      ∧ (0 + 1 < (buffered .keccak256 0).rate ∧ 134 + 1 < (buffered .keccak256 134).rate
        ∧ 135 + 1 = (buffered .keccak256 135).rate)
      ∧ (buffered .keccak256 135).phase = .absorbing
      ∧ (Instr.unmarshal []).hostIssuable = true ∧ Instr.sum ∈ [Instr.sum, .size, .blockSize, .marshal] := by
  decide +kernel

/-- R27 up to the last count before ABSORBED wraps: 2^64 - 2, of which 118 bytes are buffered. -/
theorem witness_AbsorbedCountsBuffered :
    ({ buffered .keccak256 118 with absorbed := 0xFFFFFFFFFFFFFFFE } : State).BufOk
      ∧ (0xFFFFFFFFFFFFFFFE : BitVec 64).toNat % (buffered .keccak256 118).rate = (buffered .keccak256 118).bufLen.toNat
      ∧ (0xFFFFFFFFFFFFFFFE : BitVec 64).toNat + ([0x61] : List Byte).length < 2 ^ 64 := by decide +kernel

theorem witness_WholeMessageDigest :
    (buffered .keccak256 5).buf.length = (buffered .keccak256 5).rate
      ∧ (buffered .keccak512 71).buf.length = (buffered .keccak512 71).rate := by decide +kernel

/-- Two states with one observable state that differ in everything hidden. -/
theorem witness_HiddenStateStaysHidden :
    let s := buffered .keccak256 3
    let r : State := { s with
      buf := fill 3 ++ List.replicate 133 0, scratch := countLanes, rnd := 7, blk := [], sqz := [1]
      seq := .dout [9], host := [.takeRsp] }
    s.BufOk ∧ r.BufOk ∧ s.arch = r.arch ∧ s ≠ r ∧ Instr.marshal.hostIssuable = true := by decide +kernel

/-- Accepted: BUFLEN 1, and BUFLEN at its end, RATE - 1. Rejected: too short, BUFLEN = RATE, the other variant's. -/
theorem witness_UnmarshalRestoresOrRejects :
    (SnapGood .keccak256 snapA ∧ SnapGood .keccak256 (snapA.set 216 0x87))
      ∧ ¬ SnapGood .keccak256 [] ∧ ¬ SnapGood .keccak256 (snapA.set 216 0x88) ∧ ¬ SnapGood .keccak512 snapA := by
  refine ⟨⟨?_, ?_⟩, ?_, ?_, ?_⟩ <;> rw [← snapOk_iff] <;> decide +kernel

theorem witness_RoundTripLaw :
    (buffered .keccak256 135).BufOk ∧ (buffered .keccak256 135).phase = .absorbing
      ∧ ({ buffered .keccak256 2 with a := countLanes } : State).BufOk
      ∧ ({ buffered .keccak256 2 with a := countLanes } : State).variant = (buffered .keccak256 135).variant
      ∧ ([.write abc, .sum] : List Instr).all isWriteOrSum = true := by decide +kernel

/-- The ranges inside RhoRotatesLanes and ChiCombinesRows (bits 0 and 63), IotaXorsRoundConstant (lane (1, 0)) and
AbsorbBlockXorsAndPermutes (the first and last byte of a block). -/
theorem witness_BitAndLaneRanges :
    63 < 64 ∧ 0 < 64 ∧ ¬ ((1 : Fin 5) = 0 ∧ (0 : Fin 5) = 0)
      ∧ 0 < (buffered .keccak256 0).rate ∧ 135 < (buffered .keccak256 0).rate := by decide

theorem witness_AbsorbBlockXorsAndPermutes :
    (buffered .keccak256 0).blk.length = (buffered .keccak256 0).rate
      ∧ (buffered .keccak512 0).blk.length = (buffered .keccak512 0).rate := by decide +kernel

/-- Both ends of RATE, with an output within one rate and one byte beyond. -/
theorem witness_SqueezeLoopIsGeneral :
    (1 ≤ 1 ∧ 1 ≤ 199 ∧ 1 ≤ 1 ∧ 1 ≤ 1) ∧ (1 ≤ 199 ∧ 199 ≤ 199 ∧ 1 ≤ 200 ∧ 199 < 200) := by decide

theorem witness_IllFormedInputsAreRefused :
    (fill 135).length ≠ (buffered .keccak256 0).rate
      ∧ ¬ (buffered .keccak256 136).BufOk ∧ ¬ ({ buffered .keccak256 0 with buf := [] } : State).BufOk
      ∧ decodeMicro 0x00000087 = .error .reservedMicro ∧ (portState (.micro 0x00000087) []).Running :=
  ⟨by decide +kernel, by decide +kernel, by decide +kernel, by decide, ⟨rfl, by simp [portState]⟩⟩

theorem witness_ByteViewsAreInverse : (List.replicate 200 (0xFF : Byte)).length = 200 ∧ 7 < 8 := by decide +kernel

/-- The last byte, nothing at the end, and all of STATEB; a byte before and a byte after what is written. -/
theorem witness_StateByteAccess :
    199 + ([0x61] : List Byte).length ≤ 200 ∧ 200 + ([] : List Byte).length ≤ 200 ∧ 0 + (fill 200).length ≤ 200
      ∧ (198 < 199) ∧ (3 + abc.length ≤ 6) := by decide +kernel

end Sys2Proof.Tests
end

section
/-! PROOFS. The byte view of a lane array (R41 to R43): its 25 eight-byte pieces are the lanes, in index order, so
`bytes` and `lanes` are inverse, and a write through the view replaces exactly its own bytes. -/

namespace Sys2Proof.Machine

/-! ### Slices -/

theorem slice_getElem? (s : List Byte) {i j k : Nat} (h : i + k < j) : (slice s i j)[k]? = s[i + k]? := by
  rw [slice, List.getElem?_drop, List.getElem?_take_of_lt h]

/-- The middle one of three sequences. -/
theorem slice_append_append (s t u : List Byte) : slice (s ++ t ++ u) s.length (s.length + t.length) = t := by
  rw [slice, List.take_left' List.length_append, List.drop_left]

/-! ### The lanes in the view -/

/-- The eight bytes of the view at lane index i = x + 5y are that lane, little-endian (R41): both sides evaluate to
the same eight bytes, for each of the 25 lanes. -/
theorem slice_stateBytes_lane (A : Lanes) (x y : Fin 5) :
    slice (stateBytes A) (8 * laneIndex x y) (8 * laneIndex x y + 8) = leBytes (A.get x y) := by
  fin_cases y <;> fin_cases x <;> rfl

theorem leBytes_getElem? (v : BitVec 64) {k : Nat} (h : k < 8) : (leBytes v)[k]? = some (laneByte v k) := by
  interval_cases k <;> rfl

/-- Byte `8i + k` of the view is byte k of lane i (R41). -/
theorem stateBytes_getElem?_lane (A : Lanes) (x y : Fin 5) {k : Nat} (h : k < 8) :
    (stateBytes A)[8 * laneIndex x y + k]? = some (laneByte (A.get x y) k) := by
  rw [← slice_getElem? _ (Nat.add_lt_add_left h _), slice_stateBytes_lane, leBytes_getElem? _ h]

/-- Every byte address of the view lies in one lane. -/
theorem exists_lane_of_lt {j : Nat} (h : j < 200) : ∃ (x y : Fin 5) (k : Nat), k < 8 ∧ j = 8 * laneIndex x y + k :=
  ⟨⟨j / 8 % 5, by omega⟩, ⟨j / 40, by omega⟩, j % 8, by omega, by simp only [laneIndex]; omega⟩

/-- 200 bytes are their 25 eight-byte pieces. -/
theorem eq_of_slice_lane_eq {s t : List Byte} (hs : s.length = 200) (ht : t.length = 200)
    (h : ∀ x y, slice s (8 * laneIndex x y) (8 * laneIndex x y + 8)
      = slice t (8 * laneIndex x y) (8 * laneIndex x y + 8)) : s = t := by
  refine List.ext_getElem? fun j => ?_
  by_cases hj : j < 200
  · obtain ⟨x, y, k, hk, rfl⟩ := exists_lane_of_lt hj
    have hk' := Nat.add_lt_add_left hk (8 * laneIndex x y)
    rw [← slice_getElem? s hk', ← slice_getElem? t hk', h]
  · rw [List.getElem?_eq_none (by omega), List.getElem?_eq_none (by omega)]

/-! ### Inverse views -/

@[simp] theorem lanesOf_stateBytes (A : Lanes) : lanesOf (stateBytes A) = A :=
  Lanes.ext_get fun x y => by rw [lanesOf, Lanes.get_ofFn, slice_stateBytes_lane, le64_leBytes]

theorem stateBytes_lanesOf {b : List Byte} (h : b.length = 200) : stateBytes (lanesOf b) = b := by
  refine eq_of_slice_lane_eq (stateBytes_length _) h fun x y => ?_
  have hlen : (slice b (8 * laneIndex x y) (8 * laneIndex x y + 8)).length = 8 := by
    rw [slice_length, laneIndex]; omega
  rw [slice_stateBytes_lane, lanesOf, Lanes.get_ofFn, leBytes_le64 hlen]

/-- Settles O49: each lane is an eight-byte piece of the view, and 200 bytes are their 25 pieces. -/
theorem byteViewsAreInverse : Obligations.ByteViewsAreInverse := by
  refine ⟨lanesOf_stateBytes, fun b => stateBytes_lanesOf, fun A x y k hk => ?_⟩
  have hbyte := stateBytes_getElem?_lane A x y hk
  rw [laneIndex, laneByte] at hbyte
  rw [List.getD_eq_getElem?_getD, hbyte, Option.getD_some]

/-! ### Reads and writes of the view -/

section
variable (A : Lanes) {addr : Nat} {v : List Byte} (h : addr + v.length ≤ 200)
include h

/-- The view after a write: what stood before it, the bytes written, what stood after it (R43). -/
theorem stateBytes_memWrite : stateBytes (memWrite A addr v)
    = (stateBytes A).take addr ++ v ++ (stateBytes A).drop (addr + v.length) := by
  refine stateBytes_lanesOf ?_
  simp only [List.length_append, List.length_take, List.length_drop, stateBytes_length]
  omega

theorem take_stateBytes_length : ((stateBytes A).take addr).length = addr := by
  rw [List.length_take, stateBytes_length]; omega

theorem memRead_memWrite : memRead (memWrite A addr v) addr v.length = v := by
  have hmid := slice_append_append ((stateBytes A).take addr) v ((stateBytes A).drop (addr + v.length))
  rwa [take_stateBytes_length A h, ← stateBytes_memWrite A h] at hmid

theorem stateBytes_memWrite_before {j : Nat} (hj : j < addr) :
    (stateBytes (memWrite A addr v))[j]? = (stateBytes A)[j]? := by
  have hpre := take_stateBytes_length A h
  rw [stateBytes_memWrite A h, List.append_assoc, List.getElem?_append_left (by omega),
    List.getElem?_take_of_lt hj]

theorem stateBytes_memWrite_after {j : Nat} (hj : addr + v.length ≤ j) :
    (stateBytes (memWrite A addr v))[j]? = (stateBytes A)[j]? := by
  have hlen : ((stateBytes A).take addr ++ v).length = addr + v.length := by
    rw [List.length_append, take_stateBytes_length A h]
  rw [stateBytes_memWrite A h, List.getElem?_append_right (by omega), hlen, List.getElem?_drop,
    Nat.add_sub_cancel' hj]

end

theorem memRead_getElem? (A : Lanes) (addr : Nat) {n j : Nat} (hj : j < n) :
    (memRead A addr n)[j]? = (stateBytes A)[addr + j]? :=
  slice_getElem? _ (Nat.add_lt_add_left hj addr)

/-- Settles O50: the view after a write is three pieces, and each address falls into one of them. -/
theorem stateByteAccess : Obligations.StateByteAccess := by
  intro A addr v h
  refine ⟨memRead_memWrite A h, fun j _ hout => ?_, fun j hj => ?_⟩
  · rw [List.getD_eq_getElem?_getD, List.getD_eq_getElem?_getD]
    obtain hbefore | hafter := hout
    · rw [stateBytes_memWrite_before A h hbefore]
    · rw [stateBytes_memWrite_after A h hafter]
  · rw [List.getD_eq_getElem?_getD, List.getD_eq_getElem?_getD, memRead_getElem? A addr hj]

end Sys2Proof.Machine
end

section
/-! PROOFS. Illegal command words (R67, R68, R201): what the decoder answers by the checks of R71, and the step of an
engine that holds a command, with a payload byte missing and with none missing (R62). -/

namespace Sys2Proof

/-! ### The decoder's checks -/

theorem decodeCommand_error {w : Word} {p : List Byte} {e : DecodeError} (h : decodeWord w p = .error e) :
    decodeCommand w p = .error e := by
  simp only [decodeCommand, h]

/-- Check 1 of R71: a reserved OPC is rejected whatever LEN is (R67). -/
theorem decodeWord_reservedOpcode {w : Word} (p : List Byte) (h : opcField w < 0x01 ∨ 0x07 < opcField w) :
    decodeWord w p = .error .reservedOpcode := if_pos h

/-- Check 2 of R71: OPC 0x02..0x06 is past check 1, and is rejected with a LEN (R68). -/
theorem decodeWord_lengthNotZero {w : Word} (p : List Byte)
    (h : 0x02 ≤ opcField w ∧ opcField w ≤ 0x06 ∧ lenField w ≠ 0) : decodeWord w p = .error .lengthNotZero := by
  obtain ⟨hlo, hhi, hlen⟩ := h
  have hopc : ¬ (opcField w < 0x01 ∨ 0x07 < opcField w) := by bv_omega
  rw [decodeWord, if_neg hopc, if_pos ⟨hlo, hhi, hlen⟩]

theorem decodeWord_write {w : Word} (p : List Byte) (h : opcField w = 0x01) : decodeWord w p = .ok (.write p) := by
  simp [decodeWord, h]

theorem decodeWord_unmarshal {w : Word} (p : List Byte) (h : opcField w = 0x07) :
    decodeWord w p = .ok (.unmarshal p) := by
  simp [decodeWord, h]

namespace Machine

/-! ### The engine while it holds a command -/

section
variable {s : State} {w : Word} {got : List Byte} (hseq : s.seq = .payload w got)
include hseq

theorem State.engineAction_payload_missing (h : got.length < lenField w) :
    s.engineAction = .goto (s.payloadTransfer w got) := by
  simp only [State.engineAction, hseq, if_neg (Nat.not_le.mpr h)]

theorem State.engineAction_payload_complete (h : lenField w ≤ got.length) :
    s.engineAction = s.runCommand w got := by
  simp only [State.engineAction, hseq, if_pos h]

/-- A payload byte offered while one is missing is consumed, whatever the command word is (R62). -/
theorem step_payload_dinByte (hn : s.rstN = true) (h : got.length < lenField w) {b : Byte} {rest : List HostEvent}
    (hh : s.host = .dinByte b :: rest) :
    step s = .next { s with seq := .payload w (got ++ [b]), host := rest } := by
  have hrst : ∀ e ∈ s.host.head?, e.isRst = false := by simp [hh, HostEvent.isRst]
  have htake : s.payloadTransfer w got = { s with seq := .payload w (got ++ [b]), host := rest } := by
    simp only [State.payloadTransfer, hh]
    rfl
  rw [← htake]
  exact step_of_goto ((State.nextAction_running hn hrst).trans (State.engineAction_payload_missing hseq h))

/-- A complete command that the decoder rejects is answered ILLEGAL_COMMAND in one step (R201). -/
theorem step_payload_rejected (hrun : s.Running) (h : lenField w ≤ got.length) {e : DecodeError}
    (hdec : decodeCommand w got = .error e) : step s = .next (s.raise .illegalCommand) := by
  have hraise : s.runCommand w got = .goto (s.raise .illegalCommand) := by
    simp only [State.runCommand, hdec]
  exact step_of_goto ((State.nextAction_running hrun.1 hrun.2).trans
    ((State.engineAction_payload_complete hseq h).trans hraise))

end

/-- ILLEGAL_COMMAND is the word 0x00000002 with no payload, and only SEQ takes it (R63, R200). -/
theorem State.raise_illegalCommand (s : State) :
    s.raise .illegalCommand = { s with seq := .respond 0x00000002 [] } := rfl

/-- Settles O9: the payload is consumed by framing alone, and each kind of illegal word fails its check of R71. -/
theorem illegalCommandsAreAnswered : Obligations.IllegalCommandsAreAnswered := by
  refine ⟨fun s w got hn hseq hill => ⟨fun b rest hlt hh => step_payload_dinByte hseq hn hlt hh,
    fun hlen hrun => ?_⟩, fun w p hlen => ⟨fun hopc => ?_, fun hopc => ?_⟩⟩
  · rw [← State.raise_illegalCommand]
    obtain hres | hnz := hill
    · exact step_payload_rejected hseq hrun hlen.ge (decodeCommand_error (decodeWord_reservedOpcode got hres))
    · exact step_payload_rejected hseq hrun hlen.ge (decodeCommand_error (decodeWord_lengthNotZero got hnz))
  · exact decodeCommand_ok.mpr ⟨decodeWord_write p hopc, hlen⟩
  · exact decodeCommand_ok.mpr ⟨decodeWord_unmarshal p hopc, hlen⟩

end Machine

end Sys2Proof
end

section
/-! PROOFS. Every host command runs on a well-formed buffer, keeps it well formed, and ends with one response, which
is OK with the RLEN of R64 or UNMARSHAL's CORRUPT_STATE (R157, R200, R202). -/

namespace Sys2Proof.Machine

/-! ### What a command does on a well-formed buffer -/

section
variable {s : State} (h : s.BufOk)
include h

theorem exec_write_of_bufOk (p : List Byte) : exec (.write p) s = .next ((s.writeBytes p).respond .ok []) := if_pos h

theorem exec_sum_of_bufOk : exec .sum s = .next (s.sumOn.respond .ok s.sumOn.sqz) := if_pos h

/-- SUM works on S and its latches: BUF and BUFLEN stay (R153). -/
theorem State.sumOn_bufOk : s.sumOn.BufOk := by
  simpa [State.BufOk] using h

/-- RESET sets BUFLEN to 0 and leaves BUF's length (R154). -/
theorem State.clear_bufOk : s.clear.BufOk := ⟨h.1, Variant.rate_pos s.variant⟩

/-- An accepted snapshot brings BUFLEN bytes, and BUF keeps its bytes from there on (R182, R183). -/
theorem State.restore_bufOk {p : List Byte} (hp : SnapGood s.variant p) : (s.restore p).BufOk := by
  have hbuf : s.buf.length = s.variant.rate := h.1
  have hpos := Variant.rate_pos s.variant
  have hlen := hp.length
  have hn := hp.bufLen
  refine ⟨?_, (by omega : (p.getD 216 0).toNat < s.variant.rate)⟩
  change (slice p 217 (217 + (p.getD 216 0).toNat) ++ s.buf.drop (p.getD 216 0).toNat).length = s.variant.rate
  rw [List.length_append, slice_length, List.length_drop]
  omega

end

theorem exec_unmarshal_accepted {s : State} {p : List Byte} (h : snapOk s.variant p = true) :
    exec (.unmarshal p) s = .next ((s.restore p).respond .ok []) := if_pos h

theorem exec_unmarshal_rejected {s : State} {p : List Byte} (h : ¬ snapOk s.variant p = true) :
    exec (.unmarshal p) s = .next (s.raise .corruptState) := if_neg h

/-! ### Responses -/

@[simp] theorem State.respond_reply (s : State) (st : Status) (p : List Byte) :
    (s.respond st p).reply = some (rspWord st p.length, p) := rfl

theorem State.respond_bufOk {s : State} (h : s.BufOk) (st : Status) (p : List Byte) : (s.respond st p).BufOk := h

/-- The RLEN of every command fits its 24-bit field (R63, R64). -/
theorem okRlen_lt (v : Variant) (i : Instr) : okRlen v i < lenBound := by
  have hrate := v.rate_lt
  have hout := v.outlen_le_rate
  cases i <;> simp only [okRlen, Variant.snapLen, lenBound] <;> omega

/-- `EveryCommandResponds` for one command on one state: it runs, keeps the buffer, and answers as R64 has it. -/
def Responds (s : State) (i : Instr) : Prop :=
  ∃ t w p, exec i s = .next t ∧ t.BufOk ∧ t.reply = some (w, p) ∧ lenField w = p.length
    ∧ ((opcField w = 0x00 ∧ p.length = okRlen s.variant i)
      ∨ (opcField w = 0x01 ∧ p = [] ∧ ∃ q, i = .unmarshal q))

theorem responds_of_ok {s t : State} {i : Instr} {p : List Byte} (hexec : exec i s = .next (t.respond .ok p))
    (ht : t.BufOk) (hp : p.length = okRlen s.variant i) : Responds s i :=
  ⟨_, _, p, hexec, State.respond_bufOk ht .ok p, State.respond_reply t .ok p,
    lenField_rspWord .ok (hp ▸ okRlen_lt s.variant i), .inl ⟨opcField_rspWord .ok _, hp⟩⟩

theorem responds_of_corruptState {s : State} {q : List Byte}
    (hexec : exec (.unmarshal q) s = .next (s.raise .corruptState)) (h : s.BufOk) : Responds s (.unmarshal q) :=
  ⟨_, _, [], hexec, State.respond_bufOk h .corruptState [], State.respond_reply s .corruptState [],
    lenField_rspWord .corruptState (by decide), .inr ⟨opcField_rspWord .corruptState _, rfl, q, rfl⟩⟩

theorem responds_unmarshal {s : State} (h : s.BufOk) (q : List Byte) : Responds s (.unmarshal q) := by
  by_cases hok : snapOk s.variant q = true
  · exact responds_of_ok (exec_unmarshal_accepted hok) (State.restore_bufOk h ((snapOk_iff _ _).mp hok)) rfl
  · exact responds_of_corruptState (exec_unmarshal_rejected hok) h

/-- Settles O29, command by command: each answers OK with its RLEN on a buffer it keeps well formed, and only
UNMARSHAL has a second outcome. -/
theorem everyCommandResponds : Obligations.EveryCommandResponds := by
  intro s i h hi
  change Responds s i
  cases i with
  | write p => exact responds_of_ok (exec_write_of_bufOk h p) (State.writeBytes_bufOk h p) rfl
  | sum => exact responds_of_ok (exec_sum_of_bufOk h) (State.sumOn_bufOk h) s.sumOn_sqz_length
  | reset => exact responds_of_ok (t := s.clear) rfl (State.clear_bufOk h) rfl
  | size => exact responds_of_ok (t := s) (p := [s.variant.outlenByte]) rfl h rfl
  | blockSize => exact responds_of_ok (t := s) (p := [s.variant.rateByte]) rfl h rfl
  | marshal => exact responds_of_ok (t := s) (p := s.snapshot) rfl h (State.snapshot_length h)
  | unmarshal q => exact responds_unmarshal h q
  | keccakF | round | theta | rho | pi | chi | iota | absorbBlock | pad | squeeze => cases hi

end Sys2Proof.Machine
end

section
/-! PROOFS. The Permutation Engine (R100 to R111): the words of its micro-operations, the lane that each step mapping
writes, a run of rounds as one change of the target, and the two tables with their generators. -/

namespace Sys2Proof

/-! ### The words of the micro-operations -/

/-- A MICRO word as its three fields (R66), the T bit as the statements write it. -/
theorem microWord_fields (mopc : Byte) (ri : BitVec 5) (t : Target) :
    microWord mopc ri t = mopc.setWidth 32 ||| ri.setWidth 32 <<< 8 ||| Machine.targetBit t := by
  have hbit : t.bit.setWidth 32 <<< 13 = Machine.targetBit t := by cases t <;> rfl
  rw [microWord, hbit]
  ac_rfl

theorem microWord_plain (mopc : Byte) (t : Target) :
    microWord mopc 0 t = mopc.setWidth 32 ||| Machine.targetBit t := by
  simp [microWord_fields]

theorem microWord_round (mopc : Byte) (ri : Fin 24) (t : Target) :
    microWord mopc (BitVec.ofNat 5 ri.val) t
      = mopc.setWidth 32 ||| BitVec.ofNat 32 (ri.val * 256) ||| Machine.targetBit t := by
  have hri : (BitVec.ofNat 5 ri.val).setWidth 32 <<< 8 = BitVec.ofNat 32 (ri.val * 256) := by
    decide +revert
  rw [microWord_fields, hri]

namespace Machine

/-! ### Rotation -/

/-- `ROL64` of R9 is the library's rotation. -/
theorem rol64_eq_rotateLeft (v : Lane) {n : Nat} (h : n < 64) : rol64 v n = v.rotateLeft n := by
  rw [BitVec.rotateLeft_def, Nat.mod_eq_of_lt h, rol64]

/-- Rotation left by n moves bit j to bit (j + n) mod 64, past the top or not (R9). -/
theorem getLsbD_rol64_add (v : Lane) {n j : Nat} (hn : n < 64) (hj : j < 64) :
    (rol64 v n).getLsbD ((j + n) % 64) = v.getLsbD j := by
  rw [rol64_eq_rotateLeft v hn, BitVec.getLsbD_rotateLeft, Nat.mod_eq_of_lt hn]
  by_cases hwrap : j + n < 64
  · have hlow : ¬ j + n < n := by omega
    simp [Nat.mod_eq_of_lt hwrap, hwrap, hlow]
  · have hmod : (j + n) % 64 = j + n - 64 := by omega
    have hlow : j + n - 64 < n := by omega
    have hback : 64 - n + (j + n - 64) = j := by omega
    simp [hmod, hlow, hback]

theorem rot_lt (x y : Fin 5) : rot x y < 64 := by decide +revert

/-! ### The lane at (x, y) after each step -/

section
variable (T : Lanes) (x y : Fin 5)

/-- θ, with the lane array's sheets named by subtraction and the library's rotation (R103). -/
theorem thetaStep_get : (thetaStep T).get x y
    = T.get x y ^^^ (parity T (x - 1) ^^^ (parity T (x + 1)).rotateLeft 1) := by
  have hprev : ∀ x : Fin 5, x + 4 = x - 1 := by decide
  rw [thetaStep, Lanes.get_ofFn, Row.get_ofFn, Row.get_ofFn, Row.get_ofFn, hprev, rol64_eq_rotateLeft _ (by decide)]

theorem rhoStep_get : (rhoStep T).get x y = rol64 (T.get x y) (rot x y) := Lanes.get_ofFn _ x y

theorem piStep_get : (piStep T).get x y = T.get (x + 3 * y) x := Lanes.get_ofFn _ x y

/-- The model's π reads the inverse map of R106; this is its forward map. -/
theorem piStep_get_forward : (piStep T).get y (2 * x + 3 * y) = T.get x y := by
  have hinv : ∀ x y : Fin 5, y + 3 * (2 * x + 3 * y) = x := by decide
  rw [piStep_get, hinv]

theorem chiStep_get : (chiStep T).get x y = T.get x y ^^^ (~~~T.get (x + 1) y &&& T.get (x + 2) y) :=
  Lanes.get_ofFn _ x y

theorem iotaStep_get_origin (ri : Fin 24) : (iotaStep ri T).get 0 0 = T.get 0 0 ^^^ rc ri := Lanes.get_ofFn _ 0 0

variable {x y} in
theorem iotaStep_get_other (ri : Fin 24) (h : ¬ (x = 0 ∧ y = 0)) : (iotaStep ri T).get x y = T.get x y := by
  rw [iotaStep, Lanes.get_ofFn, if_neg h]

end

/-- Adding one round constant twice cancels (R108). -/
theorem iotaStep_iotaStep (ri : Fin 24) (T : Lanes) : iotaStep ri (iotaStep ri T) = T := by
  refine Lanes.ext_get fun x y => ?_
  by_cases h : x = 0 ∧ y = 0
  · obtain ⟨rfl, rfl⟩ := h
    rw [iotaStep_get_origin, iotaStep_get_origin, BitVec.xor_assoc, BitVec.xor_self, BitVec.xor_zero]
  · rw [iotaStep_get_other _ ri h, iotaStep_get_other _ ri h]

/-! ### Changes of the target -/

theorem execAll_cons_of_next {i : Instr} {is : List Instr} {s u : State} (h : exec i s = .next u) :
    execAll (i :: is) s = execAll is u := by
  rw [execAll, h]

section
variable (s : State) (t : Target) (f g : Lanes → Lanes)

/-- A step mapping changes its target and nothing else. -/
theorem State.onLanes_frame : s.onLanes t f = s.withLanes t ((s.onLanes t f).lanes t) := by
  rw [State.onLanes_lanes, State.onLanes]

theorem State.onLanes_onLanes : (s.onLanes t f).onLanes t g = s.onLanes t (g ∘ f) := by cases t <;> rfl

theorem State.onLanes_eq_self (h : f (s.lanes t) = s.lanes t) : s.onLanes t f = s := by
  rw [State.onLanes, h]
  cases t <;> rfl

/-- A run of rounds is one change of the target by all of them, with the RND that the last of them leaves. -/
theorem execAll_rounds (ris : List (Fin 24)) : execAll (ris.map (Instr.round · t)) s
    = .next ((s.onLanes t fun T => ris.foldl (fun T ri => roundStep ri T) T).withRnd
        (ris.foldl (fun _ ri => nextRnd ri) s.rnd)) := by
  induction ris generalizing s with
  | nil => cases t <;> rfl
  | cons ri ris ih =>
    rw [List.map_cons, execAll_cons_of_next (u := s.roundOn ri t) rfl, ih]
    cases t <;> rfl

/-- The 24 rounds in order are KECCAK_F, and the last of them returns RND to 0 (R31, R101). -/
theorem execAll_all_rounds : execAll (roundIndices.map (Instr.round · t)) s = .next (s.keccakOn t) := by
  have hperm : (fun T => roundIndices.foldl (fun T ri => roundStep ri T) T) = keccakPerm := by
    funext T; rw [keccakPerm]
  have hrnd : roundIndices.foldl (fun _ ri => nextRnd ri) s.rnd = 0 := rfl
  rw [execAll_rounds, hperm, hrnd, State.keccakOn]

end

/-! ### The rounds -/

/-- Settles O35: the 24 rounds run as one change of the target, which is KECCAK_F's. -/
theorem keccakFIsItsRounds : Obligations.KeccakFIsItsRounds := fun s t =>
  ⟨microWord_plain 0x80 t, s.keccakOn t, rfl, execAll_all_rounds s t, by rw [State.keccakOn_lanes]; rfl⟩

/-- Settles O36: the five steps change the target one after the other, in the order of ROUND's composition. -/
theorem roundIsItsSteps : Obligations.RoundIsItsSteps := by
  intro s ri t
  have hsteps : execAll [.theta t, .rho t, .pi t, .chi t, .iota ri t] s = .next (s.onLanes t (roundStep ri)) := by
    cases t <;> rfl
  refine ⟨microWord_round 0x81 ri t, s.roundOn ri t, _, rfl, hsteps, ?_, ?_⟩
  · rw [State.roundOn_lanes, State.onLanes_lanes]
  · rw [State.roundOn_lanes]; rfl

/-! ### The five steps -/

/-- Settles O37 by θ's lane at (x, y). -/
theorem thetaXorsColumnParities : Obligations.ThetaXorsColumnParities := by
  refine fun s t => ⟨microWord_plain 0x82 t, s.onLanes t thetaStep, rfl, s.onLanes_frame t _, fun x y => ?_⟩
  rw [State.onLanes_lanes, thetaStep_get]
  rfl

/-- Settles O38: each lane is rotated by its entry of R, which is below 64. -/
theorem rhoRotatesLanes : Obligations.RhoRotatesLanes := by
  refine fun s t => ⟨microWord_plain 0x83 t, s.onLanes t rhoStep, rfl, s.onLanes_frame t _, fun x y j hj => ?_⟩
  rw [State.onLanes_lanes, rhoStep_get, getLsbD_rol64_add _ (rot_lt x y) hj]

/-- Settles O39 by the forward map of π. -/
theorem piRelocatesLanes : Obligations.PiRelocatesLanes := by
  refine fun s t => ⟨microWord_plain 0x84 t, s.onLanes t piStep, rfl, s.onLanes_frame t _, fun x y => ?_⟩
  rw [State.onLanes_lanes, piStep_get_forward]

/-- Settles O40: χ's lane at (x, y), read bit by bit. -/
theorem chiCombinesRows : Obligations.ChiCombinesRows := by
  refine fun s t => ⟨microWord_plain 0x85 t, s.onLanes t chiStep, rfl, s.onLanes_frame t _, fun x y j hj => ?_⟩
  rw [State.onLanes_lanes, chiStep_get, BitVec.getLsbD_xor, BitVec.getLsbD_and, BitVec.getLsbD_not,
    decide_eq_true hj, Bool.true_and]

/-- Settles O41: ι's lane at the origin, its other lanes, and that ι is its own inverse. -/
theorem iotaXorsRoundConstant : Obligations.IotaXorsRoundConstant := by
  refine fun s ri t => ⟨microWord_round 0x86 ri t, s.onLanes t (iotaStep ri), rfl, s.onLanes_frame t _, ?_,
    fun x y h => ?_, ?_⟩
  · rw [State.onLanes_lanes, iotaStep_get_origin]
  · rw [State.onLanes_lanes, iotaStep_get_other _ ri h]
  · have hundo : (s.onLanes t (iotaStep ri)).onLanes t (iotaStep ri) = s := by
      rw [State.onLanes_onLanes]
      exact s.onLanes_eq_self t _ (iotaStep_iotaStep ri _)
    exact congrArg Host.Outcome.next hundo

/-! ### The tables -/

/-- The LFSR of R110 gives all 24 constants: its 168 bits are computed. -/
theorem rc_eq_rcGenerated (ri : Fin 24) : rc ri = rcGenerated ri.val := by
  decide +kernel +revert

/-- Settles O42: the table by evaluation, the generator by `rc_eq_rcGenerated`. -/
theorem roundConstantsAreGenerated : Obligations.RoundConstantsAreGenerated :=
  ⟨rfl, rc_eq_rcGenerated⟩

/-- The 24 steps of the walk carry the offsets of the table (R111). -/
theorem rot_of_mem_rotWalk : ∀ e ∈ rotWalk 24 0 1 0, rot e.1.1 e.1.2 = e.2 := by decide

/-- The walk visits every position but (0, 0) once (R111). -/
theorem count_rotWalk (x y : Fin 5) (h : (x, y) ≠ (0, 0)) :
    ((rotWalk 24 0 1 0).map Prod.fst).count (x, y) = 1 := by
  decide +revert

/-- Settles O43: the table by evaluation, then the walk's offsets and positions. -/
theorem rotationOffsetsAreGenerated : Obligations.RotationOffsetsAreGenerated :=
  ⟨rfl, rot_of_mem_rotWalk, count_rotWalk⟩

end Machine

end Sys2Proof
end

section
/-! PROOFS. The loop of SQUEEZE at any rate and output length (R133, R134): one extraction, one turn of the loop,
and that its fuel does not matter. -/

namespace Sys2Proof.Machine

/-- A read from the front of the array is a prefix of its byte view (R42). -/
theorem memRead_front (T : Lanes) (n : Nat) : memRead T 0 n = (stateBytes T).take n := by
  rw [memRead, slice, Nat.zero_add, List.drop_zero]

section
variable {rate todo fuel : Nat} (T : Lanes)

/-- The last extraction runs no KECCAK_F (R133). -/
theorem squeezeLoop_last (h : todo ≤ rate) :
    squeezeLoop rate (fuel + 1) todo T = ((stateBytes T).take todo, T) := by
  simp [squeezeLoop, Nat.min_eq_right h, memRead_front]

/-- With more than RATE bytes to give, the loop gives RATE of them and goes on after KECCAK_F (R134). -/
theorem squeezeLoop_more (h : rate < todo) : squeezeLoop rate (fuel + 1) todo T
    = ((stateBytes T).take rate ++ (squeezeLoop rate fuel (todo - rate) (keccakPerm T)).1,
      (squeezeLoop rate fuel (todo - rate) (keccakPerm T)).2) := by
  have hrest : todo - rate ≠ 0 := Nat.sub_ne_zero_of_lt h
  simp [squeezeLoop, Nat.min_eq_left h.le, hrest, memRead_front]

end

/-- Each extraction gives at least one byte, so any fuel that is no less than the output length suffices. -/
theorem squeezeLoop_eq_squeezeOut {rate fuel todo : Nat} (T : Lanes) (hrate : 0 < rate) (htodo : 0 < todo)
    (hfuel : todo ≤ fuel) : squeezeLoop rate fuel todo T = squeezeOut rate todo T := by
  induction todo using Nat.strong_induction_on generalizing fuel T with
  | h todo ih =>
    obtain ⟨m, rfl⟩ := Nat.exists_eq_add_one.2 htodo
    obtain ⟨n, rfl⟩ := Nat.exists_eq_add_one.2 (htodo.trans_le hfuel)
    rw [squeezeOut]
    rcases Nat.lt_or_ge rate (m + 1) with hlong | hshort
    · have hrest (k : Nat) (hk : m ≤ k) := ih (m + 1 - rate) (by omega) (fuel := k) (keccakPerm T)
        (by omega) (by omega)
      rw [squeezeLoop_more T hlong, squeezeLoop_more T hlong, hrest n (by omega), hrest m le_rfl]
    · rw [squeezeLoop_last T hshort, squeezeLoop_last T hshort]

section
variable {rate outlen : Nat} (T : Lanes)

/-- Beyond one rate, the output is RATE bytes and then the squeeze of the permuted array (R134). -/
theorem squeezeOut_long (hrate : 0 < rate) (h : rate < outlen) : squeezeOut rate outlen T
    = ((stateBytes T).take rate ++ (squeezeOut rate (outlen - rate) (keccakPerm T)).1,
      (squeezeOut rate (outlen - rate) (keccakPerm T)).2) := by
  obtain ⟨n, rfl⟩ := Nat.exists_eq_add_one.2 (Nat.zero_lt_of_lt h)
  rw [squeezeOut, squeezeLoop_more T h, squeezeLoop_eq_squeezeOut _ hrate (by omega) (by omega)]

/-- SQUEEZE gives as many bytes as asked: one extraction reads at most the 200 bytes of the array (R134). -/
theorem squeezeOut_length (hrate : 0 < rate) (hview : rate ≤ 200) (hout : 0 < outlen) :
    (squeezeOut rate outlen T).1.length = outlen := by
  induction outlen using Nat.strong_induction_on generalizing T with
  | h outlen ih =>
    rcases Nat.lt_or_ge rate outlen with hlong | hshort
    · have hrest := ih (outlen - rate) (by omega) (keccakPerm T) (by omega)
      rw [squeezeOut_long T hrate hlong, List.length_append, hrest, List.length_take, stateBytes_length]
      omega
    · rw [squeezeOut_short hout hshort]
      exact memRead_length T (by omega)

end

/-- Settles O47: the length by induction on the output, then one extraction, then one turn of the loop. -/
theorem squeezeLoopIsGeneral : Obligations.SqueezeLoopIsGeneral := by
  refine fun rate outlen T hrate hview hout =>
    ⟨squeezeOut_length T hrate (by omega) hout, fun hshort => ?_, squeezeOut_long T hrate⟩
  rw [squeezeOut_short hout hshort, memRead_front]

end Sys2Proof.Machine
end

section
/-! PROOFS. WRITE, SUM, RESET and the size queries (R150 to R156). WRITE and SUM are functions of the observable state:
WRITE's loop absorbs the full blocks of BUF[0..BUFLEN) followed by the payload, and SUM answers a digest of A and
BUF[0..BUFLEN). -/

namespace Sys2Proof.Machine

/-! ### Splitting a message into blocks -/

section
variable {rate : Nat} {blk M : List Byte}

theorem fullBlocks_of_lt (h : M.length < rate) : fullBlocks rate M = 0 := Nat.div_eq_of_lt h

theorem lastBytes_of_lt (h : M.length < rate) : lastBytes rate M = M := by
  rw [lastBytes, fullBlocks_of_lt h, Nat.mul_zero, List.drop_zero]

theorem lastBytes_length : (lastBytes rate M).length = M.length % rate := by
  rw [lastBytes, List.length_drop, fullBlocks, Nat.mod_eq_sub_mul_div]

section
variable (hpos : 0 < rate) (hblk : blk.length = rate)
include hpos hblk

theorem fullBlocks_block_append : fullBlocks rate (blk ++ M) = fullBlocks rate M + 1 := by
  rw [fullBlocks, List.length_append, hblk, Nat.add_div_left _ hpos, fullBlocks]

theorem lastBytes_block_append : lastBytes rate (blk ++ M) = lastBytes rate M := by
  rw [lastBytes, fullBlocks_block_append hpos hblk, Nat.mul_succ, Nat.add_comm, ← List.drop_drop,
    List.drop_left' hblk, lastBytes]

/-- A leading block is absorbed first (R136). -/
theorem absorbBlocks_block_append (T : Lanes) : absorbBlocks rate (fullBlocks rate (blk ++ M)) (blk ++ M) T
    = absorbBlocks rate (fullBlocks rate M) M (absorbBlock blk T) := by
  rw [fullBlocks_block_append hpos hblk, absorbBlocks, List.drop_left' hblk, List.take_left' hblk]

end

end

/-! ### WRITE's loop -/

theorem State.writeByte_rate (s : State) (b : Byte) : (s.writeByte b).rate = s.rate := by
  obtain ⟨-, -, hvariant, -⟩ := s.writeByte_frame b
  exact congrArg Variant.rate hvariant

section
variable {s : State} (h : s.BufOk) (p : List Byte)
include h

/-- Byte by byte, the loop absorbs the full blocks of BUF[0..BUFLEN) followed by the payload and buffers what is left:
a byte that completes a block takes it off the front of that message, any other leaves the message as it is (R150). -/
theorem State.writeBytes_absorbs :
    (s.writeBytes p).a = absorbBlocks s.rate (fullBlocks s.rate (s.bufUsed ++ p)) (s.bufUsed ++ p) s.a
      ∧ (s.writeBytes p).bufUsed = lastBytes s.rate (s.bufUsed ++ p) := by
  induction p generalizing s with
  | nil =>
    have hlt : s.bufUsed.length < s.rate := State.bufUsed_length h ▸ h.2
    rw [List.append_nil, fullBlocks_of_lt hlt, lastBytes_of_lt hlt]
    exact ⟨rfl, rfl⟩
  | cons b p ih =>
    have hmsg : s.bufUsed ++ b :: p = s.bufUsed ++ [b] ++ p := by simp
    obtain ⟨hok, hcase⟩ := State.writeByte_spec h b
    have hrest := ih hok
    rw [State.writeByte_rate] at hrest
    rw [State.writeBytes_cons, hmsg]
    rcases hcase with ⟨_, ha, hused, _⟩ | ⟨hfull, ha, hused, _⟩
    · rwa [ha, hused] at hrest
    · have hblk : (s.bufUsed ++ [b]).length = s.rate := by
        rw [List.length_append, State.bufUsed_length h, List.length_singleton, hfull]
      have hpos : 0 < s.rate := Variant.rate_pos s.variant
      rw [absorbBlocks_block_append hpos hblk, lastBytes_block_append hpos hblk]
      rwa [ha, hused, List.nil_append] at hrest

theorem State.writeBytes_bufLen_toNat :
    (s.writeBytes p).bufLen.toNat = (s.bufLen.toNat + p.length) % s.rate := by
  rw [← State.bufUsed_length (State.writeBytes_bufOk h p), (State.writeBytes_absorbs h p).2, lastBytes_length,
    List.length_append, State.bufUsed_length h]

/-- While no block fills, no byte touches A, RND or the operand latch (R150). -/
theorem State.writeBytes_unfilled (hlt : s.bufLen.toNat + p.length < s.rate) :
    (s.writeBytes p).a = s.a ∧ (s.writeBytes p).rnd = s.rnd ∧ (s.writeBytes p).blk = s.blk := by
  induction p generalizing s with
  | nil => exact ⟨rfl, rfl, rfl⟩
  | cons b p ih =>
    have hstored := (State.storeByte_spec h b).1
    rw [List.length_cons] at hlt
    obtain ⟨hok, ⟨_, ha, _, hlen, hrnd, hblk⟩ | ⟨hfull, _⟩⟩ := State.writeByte_spec h b
    · have hlen' : (s.writeByte b).bufLen.toNat = s.bufLen.toNat + 1 := hlen ▸ hstored
      rw [State.writeBytes_cons, ← ha, ← hrnd, ← hblk]
      exact ih hok (by rw [State.writeByte_rate]; omega)
    · omega

end

/-- Settles O20: WRITE's response leaves the loop's effect on the blocks, its count, its frame and its unfilled case. -/
theorem writeAbsorbsFullBlocks : Obligations.WriteAbsorbsFullBlocks := by
  intro s p h
  obtain ⟨ha, hused⟩ := State.writeBytes_absorbs h p
  obtain ⟨hphase, habsorbed, hvariant, hscratch, -, hsqz, hrstN, hhost, hout⟩ := s.writeBytes_frame p
  exact ⟨cmdWord_eq_ofNat 0x01 p.length, _, exec_write_of_bufOk h p,
    State.respond_bufOk (State.writeBytes_bufOk h p) .ok [], ha, hused, State.writeBytes_bufLen_toNat h p, habsorbed, rfl,
    hphase, hvariant, hscratch, hsqz, hrstN, hhost, hout, State.writeBytes_unfilled h p⟩

/-! ### SUM's digest -/

/-- What SUM answers in an observable state: the digest of A and BUF[0..BUFLEN) (R152). -/
def Arch.digest (c : Arch) : List Byte :=
  (stateBytes (absorbBlock (padBlock c.variant.rate 0x01 c.bufUsed) c.a)).take c.variant.outlen

/-- The whole reply of SUM: its word counts the digest's OUTLEN bytes (R63). -/
def Arch.sumReply (c : Arch) : Option (Word × List Byte) :=
  some (BitVec.ofNat 32 (c.variant.outlen * 256), c.digest)

/-- One extraction from the duplicate, with the padded buffer absorbed, is the whole digest (R133, R152). -/
theorem State.sumOn_sqz_eq_digest (s : State) : s.sumOn.sqz = s.arch.digest := by
  have hds : s.variant.dsByte = 0x01 := by cases s.variant <;> rfl
  rw [State.sumOn_sqz, hds]
  exact (congrArg Prod.fst (squeezeOut_variant s.variant _)).trans (memRead_front _ _)

theorem State.sumOn_arch (s : State) : s.sumOn.arch = s.arch := by simp [State.arch]

theorem State.respond_arch (s : State) (st : Status) (p : List Byte) : (s.respond st p).arch = s.arch := rfl

theorem State.sumOn_reply (s : State) : (s.sumOn.respond .ok s.sumOn.sqz).reply = s.arch.sumReply := by
  rw [State.respond_reply, rspWord_ok, State.sumOn_sqz_length, State.sumOn_sqz_eq_digest]
  rfl

/-- Settles O23: the response word counts OUTLEN bytes, the payload is the digest, and SUM's frame is `sumOn`'s. -/
theorem sumReturnsDigest : Obligations.SumReturnsDigest := by
  intro s h
  refine ⟨rfl, _, exec_sum_of_bufOk h, ?_, s.sumOn_a, s.sumOn_buf, s.sumOn_bufLen, s.sumOn_phase, s.sumOn_absorbed,
    s.sumOn_variant, s.sumOn_rstN, s.sumOn_host, s.sumOn_out⟩
  rw [State.respond_seq, rspWord_ok, State.sumOn_sqz_length, State.sumOn_sqz_eq_digest]
  rfl

/-! ### SUM between WRITEs -/

/-- WRITE on the observable state (R150). -/
def Arch.write (c : Arch) (p : List Byte) : Arch where
  a := absorbBlocks c.variant.rate (fullBlocks c.variant.rate (c.bufUsed ++ p)) (c.bufUsed ++ p) c.a
  bufUsed := lastBytes c.variant.rate (c.bufUsed ++ p)
  bufLen := BitVec.ofNat 8 ((c.bufLen.toNat + p.length) % c.variant.rate)
  phase := c.phase
  absorbed := c.absorbed + BitVec.ofNat 64 p.length
  variant := c.variant

/-- What WRITE leaves observable depends on what was observable only: not on S, RND, the latches or the rest of BUF. -/
theorem State.writeBytes_arch {s : State} (h : s.BufOk) (p : List Byte) : (s.writeBytes p).arch = s.arch.write p := by
  obtain ⟨ha, hused⟩ := State.writeBytes_absorbs h p
  obtain ⟨hphase, habsorbed, hvariant, -⟩ := s.writeBytes_frame p
  have hlen : (s.writeBytes p).bufLen = BitVec.ofNat 8 ((s.bufLen.toNat + p.length) % s.rate) := by
    rw [← State.writeBytes_bufLen_toNat h p, BitVec.ofNat_toNat, BitVec.setWidth_eq]
  rw [State.arch, ha, hused, hlen, hphase, habsorbed, hvariant]
  rfl

/-- Two WRITEs are one WRITE of both payloads: the loop runs over them byte by byte (R151). -/
theorem State.arch_write_append {s : State} (h : s.BufOk) (p q : List Byte) :
    s.arch.write (p ++ q) = (s.arch.write p).write q := by
  rw [← State.writeBytes_arch h, State.writeBytes_append, State.writeBytes_arch (State.writeBytes_bufOk h p),
    State.writeBytes_arch h]

theorem replies_cons_of_next {i : Instr} {is : List Instr} {s t : State} (h : exec i s = .next t) :
    replies (i :: is) s = t.reply :: replies is t := by
  rw [replies, h]

/-- WRITE and SUM answer OK and the digest of what WRITE left observable, and leave just that to what follows them. -/
theorem replies_write_sum {s : State} (h : s.BufOk) (p : List Byte) :
    ∃ u : State, u.BufOk ∧ u.arch = s.arch.write p ∧ ∀ is, replies (.write p :: .sum :: is) s
      = some (0x00000000, []) :: (s.arch.write p).sumReply :: replies is u := by
  have hw : ((s.writeBytes p).respond .ok []).BufOk := State.respond_bufOk (State.writeBytes_bufOk h p) .ok []
  refine ⟨_, State.respond_bufOk (State.sumOn_bufOk hw) .ok ((s.writeBytes p).respond .ok []).sumOn.sqz, ?_,
    fun is => ?_⟩
  · rw [State.respond_arch, State.sumOn_arch, State.respond_arch, State.writeBytes_arch h]
  · rw [replies_cons_of_next (exec_write_of_bufOk h p), replies_cons_of_next (exec_sum_of_bufOk hw), State.sumOn_reply,
      State.respond_arch, State.writeBytes_arch h]
    rfl

/-- Settles O24: SUM keeps the observable state, on which alone its reply and the later WRITE depend. -/
theorem sumDoesNotDisturb : Obligations.SumDoesNotDisturb := by
  intro s x y h
  constructor
  · have ht : (s.sumOn.respond .ok s.sumOn.sqz).BufOk := State.respond_bufOk (State.sumOn_bufOk h) .ok _
    refine ⟨_, _, exec_sum_of_bufOk h, exec_sum_of_bufOk ht, ?_,
      (State.respond_arch _ _ _).trans s.sumOn_arch, s.sumOn_buf⟩
    rw [State.sumOn_reply, State.sumOn_reply, State.respond_arch, State.sumOn_arch]
  · obtain ⟨u, hu, hua, hfirst⟩ := replies_write_sum h x
    obtain ⟨_, -, -, hsecond⟩ := replies_write_sum hu y
    obtain ⟨_, -, -, hwhole⟩ := replies_write_sum h (x ++ y)
    rw [hfirst, hsecond, hwhole, State.arch_write_append h, hua]
    exact ⟨((s.arch.write x).write y).sumReply, by simp [replies], by simp [replies]⟩

/-! ### RESET, SIZE and BLOCKSIZE -/

/-- Settles O27: RESET's response on the cleared state, of whose BUF nothing is in use. -/
theorem resetCommand : Obligations.ResetCommand := fun s =>
  ⟨rfl, s.clear.respond .ok [], rfl, rfl, s.clear_a, s.clear_bufLen, s.clear_phase, s.clear_absorbed, s.clear_variant,
    rfl, congrArg List.length s.clear_buf, s.clear_rnd, s.clear_blk, s.clear_sqz, s.clear_rstN, s.clear_host,
    s.clear_out⟩

/-- Settles O28 by the two variants' parameters. -/
theorem sizeAndBlockSize : Obligations.SizeAndBlockSize := by
  intro s
  refine ⟨rfl, rfl, ?_, ?_⟩
  · change Host.Outcome.next (s.respond .ok [s.variant.outlenByte]) = _
    cases s.variant <;> rfl
  · change Host.Outcome.next (s.respond .ok [s.variant.rateByte]) = _
    cases s.variant <;> rfl

end Sys2Proof.Machine
end

section
/-! PROOFS. MARSHAL and UNMARSHAL (R180 to R184): a snapshot as its fields in order, what stands from each offset of
R180's table on, and the fields that an accepted snapshot restores. -/

namespace Sys2Proof.Machine

/-- `s[i..i+n)` as the statements write it (R11). -/
theorem slice_eq_take_drop (s : List Byte) (i n : Nat) : slice s i (i + n) = (s.drop i).take n := by
  rw [slice, List.drop_take, Nat.add_sub_cancel_left]

/-- Byte k of what eight bytes load to is their k-th (R12, R41). -/
theorem laneByte_le64 {b : List Byte} (hb : b.length = 8) {k : Nat} (hk : k < 8) :
    some (laneByte (le64 b) k) = b[k]? := by
  rw [← leBytes_getElem? _ hk, leBytes_le64 hb]

/-! ### The fields of a snapshot -/

section
variable (s : State)

/-- R180's table: the eight bytes of tag, configuration and phase, then ABSORBED, STATE, BUFLEN and BUFFER. -/
theorem State.snapshot_eq : s.snapshot = (snapTag ++ cfgBytes s.variant ++ [phaseByte s.phase])
    ++ (leBytes s.absorbed ++ (stateBytes s.a ++ s.bufLen :: (s.bufUsed ++ zeros (s.rate - s.bufLen.toNat)))) := by
  simp [State.snapshot]

theorem State.snapshot_take_8 : s.snapshot.take 8 = snapTag ++ cfgBytes s.variant ++ [phaseByte s.phase] := by
  rw [State.snapshot_eq]
  exact List.take_left' rfl

theorem State.snapshot_drop_8 : s.snapshot.drop 8
    = leBytes s.absorbed ++ (stateBytes s.a ++ s.bufLen :: (s.bufUsed ++ zeros (s.rate - s.bufLen.toNat))) := by
  rw [State.snapshot_eq]
  exact List.drop_left' rfl

theorem State.snapshot_drop_16 : s.snapshot.drop 16
    = stateBytes s.a ++ s.bufLen :: (s.bufUsed ++ zeros (s.rate - s.bufLen.toNat)) := by
  rw [← List.drop_drop (i := 8) (j := 8), State.snapshot_drop_8, List.drop_left' (leBytes_length _)]

theorem State.snapshot_drop_216 : s.snapshot.drop 216
    = s.bufLen :: (s.bufUsed ++ zeros (s.rate - s.bufLen.toNat)) := by
  rw [← List.drop_drop (i := 200) (j := 16), State.snapshot_drop_16, List.drop_left' (stateBytes_length _)]

theorem State.snapshot_drop_217 : s.snapshot.drop 217 = s.bufUsed ++ zeros (s.rate - s.bufLen.toNat) := by
  rw [← List.drop_drop (i := 1) (j := 216), State.snapshot_drop_216, List.drop_one, List.tail_cons]

theorem State.snapshot_absorbed_byte {k : Nat} (hk : k < 8) :
    s.snapshot.getD (8 + k) 0 = laneByte s.absorbed k := by
  rw [List.getD_eq_getElem?_getD, ← List.getElem?_drop, State.snapshot_drop_8,
    List.getElem?_append_left ((leBytes_length _).symm ▸ hk), leBytes_getElem? _ hk, Option.getD_some]

theorem State.snapshot_bufLen_byte : s.snapshot.getD 216 0 = s.bufLen := by
  rw [List.getD_eq_getElem?_getD, ← Nat.add_zero 216, ← List.getElem?_drop, State.snapshot_drop_216]
  rfl

end

/-- Settles O32: MARSHAL answers the snapshot, and each field is read where R180's table has it. -/
theorem marshalLayout : Obligations.MarshalLayout := by
  intro s h hphase
  have hhead : snapTag ++ cfgBytes s.variant ++ [phaseByte s.phase]
      = [0x4B, 0x45, 0x43, 0x01, BitVec.ofNat 8 s.rate, BitVec.ofNat 8 s.outlen, 0x01, 0x00] := by
    rw [hphase, State.rate, State.outlen]
    cases s.variant <;> rfl
  refine ⟨rfl, s.snapshot, ?_, State.snapshot_length h, s.snapshot_take_8.trans hhead,
    fun k hk => s.snapshot_absorbed_byte hk, ?_, s.snapshot_bufLen_byte, s.snapshot_drop_217⟩
  · rw [← State.snapshot_length h, ← rspWord_ok]
    rfl
  · rw [State.snapshot_drop_16, List.take_left' (stateBytes_length _)]

/-! ### What UNMARSHAL restores -/

section
variable {s : State} {p : List Byte} (hp : SnapGood s.variant p)
include hp

theorem State.restore_absorbed_byte {k : Nat} (hk : k < 8) :
    laneByte (s.restore p).absorbed k = p.getD (8 + k) 0 := by
  have hlen : (slice p 8 16).length = 8 := by
    rw [slice_length, hp.length]; omega
  have hbyte : some (laneByte (s.restore p).absorbed k) = p[8 + k]? :=
    (laneByte_le64 hlen hk).trans (slice_getElem? p (by omega))
  rw [List.getD_eq_getElem?_getD, ← hbyte, Option.getD_some]

theorem State.restore_stateBytes : stateBytes (s.restore p).a = (p.drop 16).take 200 := by
  have hlen : (slice p 16 216).length = 200 := by
    rw [slice_length, hp.length]; omega
  exact (stateBytes_lanesOf hlen).trans (slice_eq_take_drop p 16 200)

/-- The BUFLEN of an accepted snapshot is at most RATE - 1, so its buffer bytes all stand in the snapshot (R183). -/
theorem State.restore_bufUsed :
    (s.restore p).bufUsed = (p.drop 217).take (p.getD 216 0).toNat := by
  have hn := hp.bufLen
  have hlen : (slice p 217 (217 + (p.getD 216 0).toNat)).length = (p.getD 216 0).toNat := by
    rw [slice_length, hp.length]; omega
  exact (List.take_left' hlen).trans (slice_eq_take_drop p 217 _)

/-- BUF keeps its RATE bytes whatever BUFLEN was: the restored buffer does not read it. -/
theorem State.restore_buf_length (hbuf : s.buf.length = s.rate) : (s.restore p).buf.length = s.rate := by
  have hok : ({ s with bufLen := 0 } : State).BufOk := ⟨hbuf, Variant.rate_pos s.variant⟩
  exact (State.restore_bufOk hok hp).1

end

/-- Settles O33: the Boolean check is the table of R183; past it the snapshot is restored, short of it only SEQ
takes the response. -/
theorem unmarshalRestoresOrRejects : Obligations.UnmarshalRestoresOrRejects := by
  refine fun s p => ⟨cmdWord_eq_ofNat 0x07 p.length, fun hp => ?_, fun hbad => ?_⟩
  · exact ⟨_, exec_unmarshal_accepted ((snapOk_iff _ _).mpr hp), rfl, fun k hk => State.restore_absorbed_byte hp hk,
      State.restore_stateBytes hp, rfl, State.restore_bufUsed hp, rfl, rfl, rfl, rfl, rfl, rfl, rfl, rfl, rfl,
      State.restore_buf_length hp⟩
  · exact exec_unmarshal_rejected (mt (snapOk_iff _ _).mp hbad)

end Sys2Proof.Machine
end

section
/-! PROOFS. Hardware reset (R230): the step at the fall of rst_n, the steps and the port signals while it is low, and
the step at its rise. -/

namespace Sys2Proof.Machine

section
variable {s : State}

theorem step_rst_fall (hn : s.rstN = true) {rest : List HostEvent} (hh : s.host = .rstLow :: rest) :
    step s = .next { s with rstN := false, host := rest } :=
  step_of_goto (by simp only [State.nextAction, hn, hh])

section
variable (hn : s.rstN = false)
include hn

theorem step_rst_rise {rest : List HostEvent} (hh : s.host = .rstHigh :: rest) :
    step s = .next (s.withHost rest).hardwareReset :=
  step_of_goto (by simp only [State.nextAction, hn, hh])

/-- Until the host drives rst_n high, a step moves only the host's script: a second rstLow is consumed, and any other
offer waits. -/
theorem step_held_low (hh : ∀ rest, s.host ≠ .rstHigh :: rest) : ∃ hs, step s = .next (s.withHost hs) := by
  have hwait : ∃ hs, Action.goto s.hostWaits = .goto (s.withHost hs) :=
    s.hostWaits_eq.imp fun _ => congrArg Action.goto
  have hgoto : ∃ hs, s.nextAction = .goto (s.withHost hs) := by
    unfold State.nextAction
    rw [hn]
    match hhost : s.host with
    | [] => exact hwait
    | .rstHigh :: rest => exact absurd hhost (hh rest)
    | .rstLow :: rest => exact ⟨rest, rfl⟩
    | .cmdWord _ :: _ | .dinByte _ :: _ | .takeRsp :: _ | .takeDout :: _ => exact hwait
  exact hgoto.imp fun _ => step_of_goto

/-! Each signal is rst_n in the one stage that offers its channel, and low in every other. -/

theorem State.cmdReady_low : s.cmdReady = false := by
  unfold State.cmdReady
  split
  · exact hn
  all_goals rfl

theorem State.dinReady_low : s.dinReady = false := by
  unfold State.dinReady
  split
  · rw [hn, Bool.false_and]
  all_goals rfl

theorem State.rspValid_low : s.rspValid = false := by
  unfold State.rspValid
  split
  · exact hn
  all_goals rfl

theorem State.doutValid_low : s.doutValid = false := by
  unfold State.doutValid
  split
  · exact hn
  all_goals rfl

end

end

/-- Settles O10: its clauses are the step at the fall, the signals and a step while rst_n is low, which is either held
low or rises, and the reset values that the rise leaves. -/
theorem hardwareReset : Obligations.HardwareReset := by
  refine fun s => ⟨fun rest hn hh => ?_, fun hn => ?_, fun rest hn hh => ?_⟩
  · exact ⟨_, step_rst_fall hn hh, rfl, rfl, rfl, rfl⟩
  · refine ⟨State.cmdReady_low hn, State.dinReady_low hn, State.rspValid_low hn, State.doutValid_low hn, ?_⟩
    by_cases hrise : ∃ rest, s.host = .rstHigh :: rest
    · obtain ⟨rest, hh⟩ := hrise
      exact ⟨_, step_rst_rise hn hh, rfl, rfl, .inr ⟨rest, hh⟩⟩
    · obtain ⟨hs, hstep⟩ := step_held_low hn (not_exists.mp hrise)
      exact ⟨_, hstep, rfl, rfl, .inl hn⟩
  · exact ⟨_, step_rst_rise hn hh, rfl, rfl, rfl, rfl, rfl, rfl, rfl, rfl, rfl, rfl, rfl⟩

end Sys2Proof.Machine
end

section
/-! PROOFS. The encodings (R61, R65, R66, R70, R71): the fields of a MICRO word and the word of given fields, each
decoder on the words of its format, and the encoding of whatever decodes. -/

namespace Sys2Proof

/-! ### MICRO words and their fields -/

section
variable (mopc : Byte) (ri : BitVec 5) (t : Target)

@[simp] theorem riField_microWord : riField (microWord mopc ri t) = ri := by
  ext i hi
  simp [riField, microWord, hi, show 8 + i < 32 by omega, show 8 + i < 13 by omega]

@[simp] theorem targetField_microWord : targetField (microWord mopc ri t) = t := by
  have hbit : (microWord mopc ri t).extractLsb' 13 1 = t.bit := by
    ext i hi
    simp [microWord, show i = 0 by omega]
  rw [targetField, hbit]
  cases t <;> rfl

/-- The three fields end below bit 14. -/
@[simp] theorem highField_microWord : highField (microWord mopc ri t) = 0 := by
  ext i hi
  have hbit : t.bit.getLsbD (14 + i - 13) = false := BitVec.getLsbD_of_ge _ _ (by omega)
  have hri : ri.getLsbD (14 + i - 8) = false := BitVec.getLsbD_of_ge _ _ (by omega)
  have hmopc : mopc.getLsbD (14 + i) = false := BitVec.getLsbD_of_ge _ _ (by omega)
  simp [highField, microWord, hbit, hri, hmopc]

end

theorem targetField_bit (w : Word) : (targetField w).bit = w.extractLsb' 13 1 := by
  have hcases : ∀ b : BitVec 1, Target.bit (if b = 0#1 then .a else .s) = b := by decide
  exact hcases _

theorem getLsbD_of_highField_eq_zero {w : Word} (h : highField w = 0) {i : Nat} (hi : 14 ≤ i) :
    w.getLsbD i = false := by
  obtain hlt | hge := Nat.lt_or_ge i 32
  · have hbit : (highField w).getLsbD (i - 14) = false := by rw [h]; exact BitVec.getLsbD_zero
    simpa [highField, show i - 14 < 18 by omega, show 14 + (i - 14) = i by omega] using hbit
  · exact BitVec.getLsbD_of_ge w i hge

/-- A MICRO word is its three fields, as its bits [31:14] are 0 (R66). -/
theorem microWord_of_fields {w : Word} {mopc : Byte} {ri : BitVec 5} (hhigh : highField w = 0)
    (hopc : opcField w = mopc) (hri : riField w = ri) : microWord mopc ri (targetField w) = w := by
  subst hopc hri
  refine BitVec.eq_of_getLsbD_eq fun i hi => ?_
  rw [microWord, targetField_bit]
  simp only [opcField, riField, BitVec.getLsbD_or, BitVec.getLsbD_shiftLeft, BitVec.getLsbD_setWidth,
    BitVec.getLsbD_extractLsb', hi, decide_true, Bool.true_and, Nat.zero_add]
  obtain hopc | ⟨hlo, hhi⟩ | rfl | hhi : i < 8 ∨ (8 ≤ i ∧ i < 13) ∨ i = 13 ∨ 14 ≤ i := by omega
  · simp [hopc, show i < 13 by omega]
  · simp [hhi, show ¬ i < 8 by omega, show i - 8 < 5 by omega, show i - 8 < 32 by omega, Nat.add_sub_cancel' hlo]
  · simp
  · rw [getLsbD_of_highField_eq_zero hhigh hhi]
    simp [show ¬ i - 13 < 1 by omega, show ¬ i - 8 < 5 by omega, show ¬ i < 8 by omega]

/-! ### The decoder of MICRO words -/

section
variable {w : Word}

theorem microPlain_ok {i j : Instr} : microPlain w i = .ok j ↔ riField w = 0 ∧ i = j := by
  unfold microPlain
  split
  · next h => simp only [Except.ok.injEq, h, true_and]
  · next h => simp only [reduceCtorEq, h, false_and]

/-- RI of a round index is the index: it fits the field's five bits (R66). -/
theorem microRound_ok {f : Fin 24 → Instr} {j : Instr} :
    microRound w f = .ok j ↔ ∃ r : Fin 24, riField w = BitVec.ofNat 5 r.val ∧ f r = j := by
  have hnat (r : Fin 24) (hr : riField w = BitVec.ofNat 5 r.val) : (riField w).toNat = r.val := by
    rw [hr, BitVec.toNat_ofNat, Nat.mod_eq_of_lt (r.isLt.trans (by decide))]
  by_cases h : (riField w).toNat < 24
  · rw [microRound, dif_pos h, Except.ok.injEq]
    refine ⟨fun hj => ⟨_, by simp, hj⟩, fun ⟨r, hr, hj⟩ => ?_⟩
    rw [← hj]
    exact congrArg f (Fin.eq_of_val_eq (hnat r hr))
  · rw [microRound, dif_neg h]
    refine ⟨nofun, fun ⟨r, hr, _⟩ => absurd (hnat r hr ▸ r.isLt) h⟩

end

theorem decodeMicro_headWord {i : Instr} (hi : i.hostIssuable = false) : decodeMicro i.headWord = .ok i := by
  cases i with
  | write | sum | reset | size | blockSize | marshal | unmarshal => cases hi
  | keccakF | theta | rho | pi | chi | absorbBlock | pad | squeeze =>
    simp [decodeMicro, Instr.headWord, opcField_microWord, microPlain_ok]
  | round | iota => simp [decodeMicro, Instr.headWord, opcField_microWord, microRound_ok]

/-- A branch of the decoder whose row has RI 0, for a row that carries its target. -/
theorem headWord_of_microPlain {w : Word} {mopc : Byte} {i j : Instr} (hhigh : highField w = 0)
    (hopc : opcField w = mopc) (hj : microPlain w j = .ok i) (hword : j.headWord = microWord mopc 0 (targetField w))
    (hhost : j.hostIssuable = false) : i.headWord = w ∧ i.hostIssuable = false := by
  obtain ⟨hri, rfl⟩ := microPlain_ok.mp hj
  exact ⟨hword.trans (microWord_of_fields hhigh hopc hri), hhost⟩

/-- A branch of the decoder whose row has a round index in RI. -/
theorem headWord_of_microRound {w : Word} {mopc : Byte} {i : Instr} {f : Fin 24 → Instr} (hhigh : highField w = 0)
    (hopc : opcField w = mopc) (hf : microRound w f = .ok i)
    (hword : ∀ r, (f r).headWord = microWord mopc (BitVec.ofNat 5 r.val) (targetField w))
    (hhost : ∀ r, (f r).hostIssuable = false) : i.headWord = w ∧ i.hostIssuable = false := by
  obtain ⟨r, hri, rfl⟩ := microRound_ok.mp hf
  exact ⟨(hword r).trans (microWord_of_fields hhigh hopc hri), hhost r⟩

/-- One branch of a decoder: the word decodes in it, or in what follows it. -/
theorem ite_eq_ok_elim {α : Type} {c : Prop} [Decidable c] {a b : Except DecodeError α} {i : α} {P : Prop}
    (h : (if c then a else b) = .ok i) (ha : c → a = .ok i → P) (hb : ¬ c → b = .ok i → P) : P := by
  split at h
  · exact ha ‹_› h
  · exact hb ‹_› h

/-- What decodes to a micro-operation is its encoding: the branch taken fixes MOPC, and RI and T are read back (R66). -/
theorem headWord_of_decodeMicro {w : Word} {i : Instr} (h : decodeMicro w = .ok i) :
    i.headWord = w ∧ i.hostIssuable = false := by
  refine ite_eq_ok_elim h nofun fun hne h => ?_
  have hhigh := not_not.mp hne
  refine ite_eq_ok_elim h (fun h80 h => headWord_of_microPlain hhigh h80 h rfl rfl) fun _ h => ?_
  refine ite_eq_ok_elim h (fun h81 h => headWord_of_microRound hhigh h81 h (fun _ => rfl) (fun _ => rfl)) fun _ h => ?_
  refine ite_eq_ok_elim h (fun h82 h => headWord_of_microPlain hhigh h82 h rfl rfl) fun _ h => ?_
  refine ite_eq_ok_elim h (fun h83 h => headWord_of_microPlain hhigh h83 h rfl rfl) fun _ h => ?_
  refine ite_eq_ok_elim h (fun h84 h => headWord_of_microPlain hhigh h84 h rfl rfl) fun _ h => ?_
  refine ite_eq_ok_elim h (fun h85 h => headWord_of_microPlain hhigh h85 h rfl rfl) fun _ h => ?_
  refine ite_eq_ok_elim h (fun h86 h => headWord_of_microRound hhigh h86 h (fun _ => rfl) (fun _ => rfl)) fun _ h => ?_
  refine ite_eq_ok_elim h (fun h88 h => headWord_of_microPlain hhigh h88 h rfl rfl) fun _ h => ?_
  refine ite_eq_ok_elim h (fun h89 h => ite_eq_ok_elim h (fun ha h => ?_) nofun) fun _ h => ?_
  · exact headWord_of_microPlain hhigh h89 h (ha ▸ rfl) rfl
  exact ite_eq_ok_elim h (fun h8A h => headWord_of_microPlain hhigh h8A h rfl rfl) nofun

/-! ### The decoder of command words -/

theorem headWord_eq_cmdWord {i : Instr} (hi : i.hostIssuable = true) :
    i.headWord = cmdWord i.opcode i.payload.length := by
  cases i with
  | write | sum | reset | size | blockSize | marshal | unmarshal => rfl
  | keccakF | round | theta | rho | pi | chi | iota | absorbBlock | pad | squeeze => cases hi

theorem Instr.wf_iff {i : Instr} : i.wf = true ↔ i.payload.length < lenBound := decide_eq_true_iff

theorem lenField_headWord {i : Instr} (hi : i.hostIssuable = true) (hwf : i.wf = true) :
    lenField i.headWord = i.payload.length := by
  rw [headWord_eq_cmdWord hi, lenField_cmdWord _ (Instr.wf_iff.mp hwf)]

/-- Past its two checks a command word is a row of R65 (R71). -/
theorem decodeWord_total {w : Word} (p : List Byte) (hopc : ¬ (opcField w < 0x01 ∨ 0x07 < opcField w))
    (hlen : ¬ (0x02 ≤ opcField w ∧ opcField w ≤ 0x06 ∧ lenField w ≠ 0)) : ∃ i, decodeWord w p = .ok i := by
  rw [decodeWord, if_neg hopc, if_neg hlen]
  split_ifs <;> exact ⟨_, rfl⟩

/-- The row is told by OPC; with LEN bytes of payload it carries them, as LEN is 0 where it carries none (R68). -/
theorem decodeWord_ok_fields {w : Word} {p : List Byte} {i : Instr} (h : decodeWord w p = .ok i) :
    i.opcode = opcField w ∧ i.hostIssuable = true ∧ (p.length = lenField w → i.payload = p) := by
  unfold decodeWord at h
  split_ifs at h with hopc hlen h1 h2 h3 h4 h5 h6 <;> obtain rfl := Except.ok.inj h
  case neg =>
    have h7 : opcField w = 0x07 := by bv_omega
    exact ⟨h7.symm, rfl, fun _ => rfl⟩
  all_goals refine ⟨‹opcField w = _›.symm, rfl, fun hp => ?_⟩
  · rfl
  all_goals
    have hzero : lenField w = 0 := by
      by_contra hne
      exact hlen ⟨by rw [‹opcField w = _›]; decide, by rw [‹opcField w = _›]; decide, hne⟩
    exact (List.length_eq_zero_iff.mp (hp.trans hzero)).symm

theorem decodeCommand_headWord {i : Instr} (hi : i.hostIssuable = true) (hwf : i.wf = true) :
    decodeCommand i.headWord i.payload = .ok i := by
  refine decodeCommand_ok.mpr ⟨?_, (lenField_headWord hi hwf).symm⟩
  cases i with
  | write p => exact decodeWord_write p (opcField_cmdWord _ _)
  | unmarshal p => exact decodeWord_unmarshal p (opcField_cmdWord _ _)
  | sum | reset | size | blockSize | marshal => decide
  | keccakF | round | theta | rho | pi | chi | iota | absorbBlock | pad | squeeze => cases hi

/-- The two spaces of the opcode table are told apart by bit 7 of the operation code (R66, R67). -/
theorem inMicroSpace_headWord (i : Instr) : inMicroSpace i.headWord = !i.hostIssuable := by
  cases i with
  | write | sum | reset | size | blockSize | marshal | unmarshal =>
    simp [inMicroSpace, Instr.headWord, Instr.hostIssuable]
  | keccakF | round | theta | rho | pi | chi | iota | absorbBlock | pad | squeeze =>
    simp [inMicroSpace, Instr.headWord, Instr.hostIssuable, opcField_microWord]

/-- The first command of a byte stream, with any bytes following it (R45, R70). -/
theorem decode_encode_append {i : Instr} (hi : i.hostIssuable = true) (hwf : i.wf = true) (rest : List Byte) :
    decode (encode i ++ rest) = .ok (i, rest) := by
  have hlen := lenField_headWord hi hwf
  have hfits : ¬ (i.payload ++ rest).length < i.payload.length := by simp
  simp only [encode, wordBytes, List.cons_append, List.nil_append, decode, wordOfBytes_extract, hlen,
    if_neg hfits, List.take_left, List.drop_left, decodeCommand_headWord hi hwf]

/-! ### The statements -/

/-- Settles O1: a host command by its word's OPC and LEN, a micro-operation by its word's three fields. -/
theorem decodeOfEncode : Obligations.DecodeOfEncode := by
  refine fun i hwf => ⟨?_, fun hi => decode_encode_append hi hwf, decodeMicro_headWord⟩
  cases hi : i.hostIssuable with
  | true =>
    rw [decodeEither, inMicroSpace_headWord, hi]
    exact (decodeCommand_ok.mp (decodeCommand_headWord hi hwf)).1
  | false =>
    rw [decodeEither, inMicroSpace_headWord, hi]
    exact decodeMicro_headWord hi

/-- Settles O2: OPC and LEN are all of a command word, and MOPC, RI and T all of a MICRO word. -/
theorem encodeOfDecode : Obligations.EncodeOfDecode := by
  refine fun w p i => ⟨fun h => ?_, headWord_of_decodeMicro⟩
  obtain ⟨hword, hp⟩ := decodeCommand_ok.mp h
  obtain ⟨hopc, hi, hpayload⟩ := decodeWord_ok_fields hword
  have hpay := hpayload hp
  refine ⟨?_, hpay, ?_, hi⟩
  · rw [headWord_eq_cmdWord hi, hopc, hpay, hp, cmdWord_fields]
  · rw [Instr.wf_iff, hpay, hp]
    exact lenField_lt w

/-- Settles O3 by the two checks and what is left past them. -/
theorem commandDecodingIsTotal : Obligations.CommandDecodingIsTotal := by
  intro w p hp
  split_ifs with hopc hlen
  · exact decodeCommand_error (decodeWord_reservedOpcode p hopc)
  · exact decodeCommand_error (decodeWord_lengthNotZero p hlen)
  · obtain ⟨i, hword⟩ := decodeWord_total p hopc hlen
    obtain ⟨hopcode, hi, hpayload⟩ := decodeWord_ok_fields hword
    exact ⟨i, decodeCommand_ok.mpr ⟨hword, hp⟩, hopcode, hi, hpayload hp⟩

/-- Settles O4 by evaluating the decoders on the 13 words. -/
theorem writtenOutWordsDecode : Obligations.WrittenOutWordsDecode := by
  unfold Obligations.WrittenOutWordsDecode
  decide

end Sys2Proof
end

section
/-! PROOFS. What a step can do, said once: the next state of an instruction on well-formed inputs (R204), and the
transfers, reset edges and waits (R60, R230, R236). The invariants, progress and the frame of a step follow from the
two. -/

namespace Sys2Proof.Machine

/-! ### What an instruction does -/

/-- The well-formed inputs of an instruction (R204): all that `exec` checks before it runs one. -/
def State.Ready (s : State) : Instr → Prop
  | .write _ | .sum | .pad => s.BufOk
  | .absorbBlock _ => s.blk.length = s.rate
  | .reset | .size | .blockSize | .marshal | .unmarshal _ => True
  | .keccakF _ | .round _ _ | .theta _ | .rho _ | .pi _ | .chi _ | .iota _ _ | .squeeze _ => True

/-- The next state of an instruction on well-formed inputs. -/
def State.effect (s : State) : Instr → State
  | .write p => (s.writeBytes p).respond .ok []
  | .sum => s.sumOn.respond .ok s.sumOn.sqz
  | .reset => s.clear.respond .ok []
  | .size => s.respond .ok [s.variant.outlenByte]
  | .blockSize => s.respond .ok [s.variant.rateByte]
  | .marshal => s.respond .ok s.snapshot
  | .unmarshal p => if snapOk s.variant p then (s.restore p).respond .ok [] else s.raise .corruptState
  | .keccakF t => s.keccakOn t
  | .round ri t => s.roundOn ri t
  | .theta t => s.onLanes t thetaStep
  | .rho t => s.onLanes t rhoStep
  | .pi t => s.onLanes t piStep
  | .chi t => s.onLanes t chiStep
  | .iota ri t => s.onLanes t (iotaStep ri)
  | .absorbBlock t => s.absorbOn t
  | .pad => s.padOn
  | .squeeze t => s.squeezeOn t

section
variable {s t : State} {i : Instr}

theorem exec_of_ready (h : s.Ready i) : exec i s = .next (s.effect i) := by
  cases i with
  | write | sum | pad | absorbBlock => exact if_pos h
  | unmarshal p => exact (apply_ite Host.Outcome.next _ _ _).symm
  | reset | size | blockSize | marshal | keccakF | round | theta | rho | pi | chi | iota | squeeze => rfl

theorem ready_of_exec (h : exec i s = .next t) : s.Ready i := by
  cases i with
  | write | sum | pad | absorbBlock =>
    by_contra hbad
    exact nomatch (if_neg hbad).symm.trans h
  | reset | size | blockSize | marshal | unmarshal => trivial
  | keccakF | round | theta | rho | pi | chi | iota | squeeze => trivial

/-- `exec` answers a next state on well-formed inputs only, and then the instruction's effect. -/
theorem exec_eq_next_iff : exec i s = .next t ↔ s.Ready i ∧ t = s.effect i := by
  refine ⟨fun h => ⟨ready_of_exec h, ?_⟩, fun ⟨h, ht⟩ => ht ▸ exec_of_ready h⟩
  rw [exec_of_ready (ready_of_exec h)] at h
  exact (Host.Outcome.next.inj h).symm

/-- No instruction writes CFG, rst_n, the host's script or the host's record. -/
theorem State.effect_frame (s : State) (i : Instr) : (s.effect i).variant = s.variant
    ∧ (s.effect i).rstN = s.rstN ∧ (s.effect i).host = s.host ∧ (s.effect i).out = s.out := by
  cases i with
  | write p =>
    obtain ⟨-, -, hvariant, -, -, -, hrstN, hhost, hout⟩ := s.writeBytes_frame p
    exact ⟨hvariant, hrstN, hhost, hout⟩
  | unmarshal p =>
    rw [State.effect]
    split <;> exact ⟨rfl, rfl, rfl, rfl⟩
  | sum | reset | size | blockSize | marshal => simp [State.effect]
  | keccakF | round | theta | rho | pi | chi | iota | absorbBlock | pad | squeeze => simp [State.effect]

end

/-! ### What a step does without an instruction -/

/-- The moves of the engine that run no instruction: SEQ, rst_n, the host's script and its record, and all of the
state when rst_n rises. -/
inductive Move (s : State) : State → Prop
  /-- A wait, an edge of rst_n that resets nothing, or a command word split into bytes. -/
  | ports (n : Bool) (hs : List HostEvent) : Move s { s with rstN := n, host := hs }
  /-- The rise of rst_n. -/
  | release (rest : List HostEvent) (hn : s.rstN = false) (hh : s.host = .rstHigh :: rest) :
      Move s (s.withHost rest).hardwareReset
  /-- A command word is taken. -/
  | takeWord (w : Word) (rest : List HostEvent) : Move s ((s.withSeq (.payload w [])).withHost rest)
  /-- A payload byte is taken. -/
  | takeByte {w : Word} {got : List Byte} (b : Byte) (rest : List HostEvent) (hseq : s.seq = .payload w got)
      (hlen : got.length < lenField w) : Move s ((s.withSeq (.payload w (got ++ [b]))).withHost rest)
  /-- An illegal command is answered. -/
  | illegal : Move s (s.raise .illegalCommand)
  /-- The host takes the response word. -/
  | giveWord {w : Word} {p : List Byte} (rest : List HostEvent) (hseq : s.seq = .respond w p) (hn : s.rstN = true) :
      Move s (((s.withSeq (afterWord p)).withHost rest).deliver (.word w))
  /-- The host takes a response byte. -/
  | giveByte {b : Byte} {p : List Byte} (rest : List HostEvent) (hseq : s.seq = .dout (b :: p)) (hn : s.rstN = true) :
      Move s (((s.withSeq (afterWord p)).withHost rest).deliver (.byte b))
  /-- An empty rest of a response is left. -/
  | drained : Move s (s.withSeq .idle)

section
variable (s : State)

theorem Move.stay : Move s s := .ports s.rstN s.host

theorem State.hostWaits_move : Move s s.hostWaits := by
  obtain ⟨hs, hw⟩ := s.hostWaits_eq
  exact hw ▸ .ports s.rstN hs

theorem State.idleTransfer_move : Move s s.idleTransfer := by
  unfold State.idleTransfer
  split
  · exact .takeWord _ _
  · exact s.hostWaits_move
  · exact s.hostWaits_move
  · exact s.hostWaits_move
  all_goals exact .stay s

section
variable {s} {w : Word} {p : List Byte}

theorem State.payloadTransfer_move (hseq : s.seq = .payload w p) (hlen : p.length < lenField w) :
    Move s (s.payloadTransfer w p) := by
  unfold State.payloadTransfer
  split
  · exact .takeByte _ _ hseq hlen
  · exact .ports s.rstN _
  · exact s.hostWaits_move
  · exact s.hostWaits_move
  all_goals exact .stay s

theorem State.rspTransfer_move (hseq : s.seq = .respond w p) (hn : s.rstN = true) : Move s (s.rspTransfer w p) := by
  unfold State.rspTransfer
  split
  · exact .giveWord _ hseq hn
  · exact s.hostWaits_move
  · exact s.hostWaits_move
  · exact s.hostWaits_move
  all_goals exact .stay s

theorem State.doutTransfer_move {b : Byte} (hseq : s.seq = .dout (b :: p)) (hn : s.rstN = true) :
    Move s (s.doutTransfer b p) := by
  unfold State.doutTransfer
  split
  · exact .giveByte _ hseq hn
  · exact s.hostWaits_move
  · exact s.hostWaits_move
  · exact s.hostWaits_move
  all_goals exact .stay s

end

end

section
variable {s t : State}

theorem State.engineAction_move (hn : s.rstN = true) (h : s.engineAction = .goto t) : Move s t := by
  unfold State.engineAction at h
  split at h
  · cases h; exact s.idleTransfer_move
  · next w got hseq =>
    split at h
    · unfold State.runCommand at h
      split at h <;> cases h
      exact .illegal
    · next hlen => cases h; exact State.payloadTransfer_move hseq (Nat.lt_of_not_le hlen)
  · unfold State.runMicro at h
    split at h <;> cases h
  · next hseq => cases h; exact State.rspTransfer_move hseq hn
  · next hseq => cases h; exact State.doutTransfer_move hseq hn
  · cases h; exact .drained

theorem State.nextAction_move (h : s.nextAction = .goto t) : Move s t := by
  unfold State.nextAction at h
  split at h
  · cases h; exact .ports false _
  · cases h; exact .ports s.rstN _
  · next hn _ _ => exact State.engineAction_move hn h
  · next hn hh => cases h; exact .release _ hn hh
  · cases h; exact .ports s.rstN _
  · cases h; exact s.hostWaits_move

/-- A step that answers a next state runs a complete command or a micro-operation that SEQ holds, or makes a move. -/
theorem step_next_cases (h : step s = .next t) :
    (∃ i, (s.withSeq .idle).Ready i ∧ t = (s.withSeq .idle).effect i
      ∧ ((∃ w got, s.seq = .payload w got ∧ lenField w ≤ got.length ∧ decodeCommand w got = .ok i)
        ∨ ∃ w, s.seq = .micro w ∧ decodeMicro w = .ok i)) ∨ Move s t := by
  obtain ⟨i, s', hrun, hexec⟩ | hgoto := step_cases h
  · obtain ⟨-, rfl, hheld⟩ := State.nextAction_run hrun
    obtain ⟨hready, ht⟩ := exec_eq_next_iff.mp hexec
    exact .inl ⟨i, hready, ht, hheld⟩
  · exact .inr (State.nextAction_move hgoto)

end

/-! ### The invariant -/

theorem State.resetOf_inv (v : Variant) : (State.resetOf v).Inv :=
  ⟨⟨List.length_replicate, Variant.rate_pos v⟩, rfl, Nat.zero_lt_succ _, List.length_replicate, trivial⟩

theorem State.resetOf_settled (v : Variant) : (State.resetOf v).Settled := ⟨rfl, nofun⟩

theorem nextRnd_lt (r : Fin 24) : (nextRnd r).toNat < 24 := by decide +revert

theorem afterWord_seqOk (p : List Byte) : SeqOk (afterWord p) := by
  cases p <;> simp [afterWord, SeqOk]

theorem afterWord_ne_micro (p : List Byte) (w : Word) : afterWord p ≠ .micro w := by
  cases p <;> exact nofun

theorem seqOk_respond_ok {p : List Byte} (h : p.length < lenBound) : SeqOk (.respond (rspWord .ok p.length) p) :=
  ⟨lenField_rspWord .ok h, fun hne => absurd (opcField_rspWord .ok _) hne, by rw [opcField_rspWord]; decide⟩

namespace State.Inv

variable {s : State} (h : s.Inv)
include h

theorem withSeq {q : Seq} (hq : SeqOk q) : (s.withSeq q).Inv :=
  ⟨h.bufOk, h.phase_eq, h.rnd_lt, h.blk_length, hq⟩

theorem withRnd {r : BitVec 5} (hr : r.toNat < 24) : (s.withRnd r).Inv :=
  ⟨h.bufOk, h.phase_eq, hr, h.blk_length, h.seq_ok⟩

theorem loadBlk {b : List Byte} (hb : b.length = s.rate) : (s.loadBlk b).Inv :=
  ⟨h.bufOk, h.phase_eq, h.rnd_lt, hb, h.seq_ok⟩

theorem onLanes (t : Target) (f : Lanes → Lanes) : (s.onLanes t f).Inv := by
  cases t <;> exact ⟨h.bufOk, h.phase_eq, h.rnd_lt, h.blk_length, h.seq_ok⟩

theorem keccakOn (t : Target) : (s.keccakOn t).Inv := (h.onLanes t _).withRnd (Nat.zero_lt_succ _)

theorem roundOn (ri : Fin 24) (t : Target) : (s.roundOn ri t).Inv := (h.onLanes t _).withRnd (nextRnd_lt ri)

theorem absorbOn (t : Target) : (s.absorbOn t).Inv := (h.onLanes t _).keccakOn t

theorem padOn : s.padOn.Inv :=
  h.loadBlk (padBlock_length _ ((State.bufUsed_length h.bufOk).trans_lt h.bufOk.2))

theorem squeezeOn (t : Target) : (s.squeezeOn t).Inv := by
  cases t <;> exact ⟨h.bufOk, h.phase_eq, h.rnd_lt, h.blk_length, h.seq_ok⟩

theorem sumOn : s.sumOn.Inv := ((h.onLanes .s fun _ => s.a).padOn.absorbOn .s).squeezeOn .s

theorem writeByte (b : Byte) : (s.writeByte b).Inv := by
  obtain ⟨hphase, -, -, -, hseq, -⟩ := s.writeByte_frame b
  obtain ⟨hok, ⟨-, -, -, -, hrnd, hblk⟩ | ⟨hfull, -, -, -, hrnd, hblk⟩⟩ := State.writeByte_spec h.bufOk b
  · refine ⟨hok, hphase.trans h.phase_eq, hrnd ▸ h.rnd_lt, ?_, hseq ▸ h.seq_ok⟩
    rw [hblk, State.writeByte_rate, h.blk_length]
  · refine ⟨hok, hphase.trans h.phase_eq, by simp [hrnd], ?_, hseq ▸ h.seq_ok⟩
    rw [hblk, State.writeByte_rate, List.length_append, State.bufUsed_length h.bufOk, List.length_singleton, hfull]

theorem writeBytes (p : List Byte) : (s.writeBytes p).Inv := by
  induction p generalizing s with
  | nil => exact h
  | cons b p ih => exact ih (h.writeByte b)

theorem clear : s.clear.Inv :=
  ⟨State.clear_bufOk h.bufOk, rfl, Nat.zero_lt_succ _, h.blk_length, h.seq_ok⟩

theorem restore {p : List Byte} (hp : SnapGood s.variant p) : (s.restore p).Inv :=
  ⟨State.restore_bufOk h.bufOk hp, rfl, h.rnd_lt, h.blk_length, h.seq_ok⟩

theorem respond_ok {p : List Byte} (hp : p.length < lenBound) : (s.respond .ok p).Inv :=
  h.withSeq (seqOk_respond_ok hp)

theorem raise {e : Status} (he : statusCode e ≤ 0x02) : (s.raise e).Inv :=
  h.withSeq ⟨lenField_rspWord e (by decide), fun _ => rfl, (opcField_rspWord e _).symm ▸ he⟩

/-- Each instruction is a composition of operations that keep the invariant. -/
theorem effect (i : Instr) : (s.effect i).Inv := by
  have hout := s.variant.outlen_le_rate
  have hrate := s.variant.rate_lt
  cases i with
  | write p => exact (h.writeBytes p).respond_ok (by decide)
  | sum =>
    refine h.sumOn.respond_ok ?_
    rw [State.sumOn_sqz_length, State.outlen, lenBound]
    omega
  | reset => exact h.clear.respond_ok (by decide)
  | size | blockSize => exact h.respond_ok (Nat.one_lt_two_pow (by decide))
  | marshal =>
    refine h.respond_ok ?_
    rw [State.snapshot_length h.bufOk, State.rate, lenBound]
    omega
  | unmarshal p =>
    rw [State.effect]
    split
    · next hok => exact (h.restore ((snapOk_iff _ _).mp hok)).respond_ok (by decide)
    · exact h.raise (by decide)
  | keccakF t => exact h.keccakOn t
  | round ri t => exact h.roundOn ri t
  | theta t | rho t | pi t | chi t | iota _ t => exact h.onLanes t _
  | absorbBlock t => exact h.absorbOn t
  | pad => exact h.padOn
  | squeeze t => exact h.squeezeOn t

/-- A move keeps every register or resets them all, and goes from one stage of a command to a well-formed one. -/
theorem move {t : State} (hm : Move s t) : t.Inv := by
  cases hm with
  | ports => exact ⟨h.bufOk, h.phase_eq, h.rnd_lt, h.blk_length, h.seq_ok⟩
  | release =>
    obtain ⟨hbuf, hphase, hrnd, hblk, hseq⟩ := State.resetOf_inv s.variant
    exact ⟨hbuf, hphase, hrnd, hblk, hseq⟩
  | takeWord => exact ⟨h.bufOk, h.phase_eq, h.rnd_lt, h.blk_length, Nat.zero_le _⟩
  | takeByte b rest hseq hlen =>
    exact ⟨h.bufOk, h.phase_eq, h.rnd_lt, h.blk_length, by simpa [SeqOk] using hlen⟩
  | illegal => exact h.raise (by decide)
  | giveWord | giveByte => exact ⟨h.bufOk, h.phase_eq, h.rnd_lt, h.blk_length, afterWord_seqOk _⟩
  | drained => exact h.withSeq trivial

end State.Inv

/-- Settles O13: an instruction and a move both keep the invariant. -/
theorem stepKeepsInvariant : Obligations.StepKeepsInvariant := by
  intro s t h hstep
  obtain ⟨i, -, rfl, -⟩ | hmove := step_next_cases hstep
  · exact (h.withSeq (q := .idle) trivial).effect i
  · exact h.move hmove

/-! ### RND and the micro-operations -/

theorem State.writeBytes_rnd {s : State} (h : s.BufOk) (hrnd : s.rnd = 0) (p : List Byte) :
    (s.writeBytes p).rnd = 0 := by
  induction p generalizing s with
  | nil => exact hrnd
  | cons b p ih =>
    obtain ⟨hok, ⟨-, -, -, -, hkeep, -⟩ | ⟨-, -, -, -, hzero, -⟩⟩ := State.writeByte_spec h b
    · exact ih hok (hkeep.trans hrnd)
    · exact ih hok hzero

/-- A host command leaves RND 0: WRITE and SUM run whole permutations, and RESET clears it (R31). -/
theorem State.effect_rnd {s : State} {i : Instr} (hready : s.Ready i) (hi : i.hostIssuable = true) (hrnd : s.rnd = 0) :
    (s.effect i).rnd = 0 := by
  cases i with
  | write p => exact State.writeBytes_rnd hready hrnd p
  | sum => exact s.sumOn_rnd
  | reset => rfl
  | size | blockSize | marshal => exact hrnd
  | unmarshal p =>
    rw [State.effect]
    split <;> exact hrnd
  | keccakF | round | theta | rho | pi | chi | iota | absorbBlock | pad | squeeze => cases hi

/-- A host command ends with its response (R63). -/
theorem State.effect_seq {s : State} {i : Instr} (hi : i.hostIssuable = true) :
    ∃ w p, (s.effect i).seq = .respond w p := by
  cases i with
  | write | sum | reset | size | blockSize | marshal => exact ⟨_, _, rfl⟩
  | unmarshal p =>
    rw [State.effect]
    split <;> exact ⟨_, _, rfl⟩
  | keccakF | round | theta | rho | pi | chi | iota | absorbBlock | pad | squeeze => cases hi

theorem Move.settled {s t : State} (hm : Move s t) (h : s.Settled) : t.Settled := by
  obtain ⟨hrnd, hmicro⟩ := h
  cases hm with
  | ports => exact ⟨hrnd, hmicro⟩
  | release => exact State.resetOf_settled s.variant
  | takeWord | takeByte | illegal | drained => exact ⟨hrnd, nofun⟩
  | giveWord | giveByte => exact ⟨hrnd, afterWord_ne_micro _⟩

/-- A settled engine runs host commands only: what SEQ holds is a complete command, and what decodes from one is no
micro-operation. -/
theorem step_settled_cases {s t : State} (h : s.Settled) (hstep : step s = .next t) :
    (∃ i w got, i.hostIssuable = true ∧ (s.withSeq .idle).Ready i ∧ t = (s.withSeq .idle).effect i
      ∧ s.seq = .payload w got ∧ lenField w ≤ got.length ∧ decodeCommand w got = .ok i) ∨ Move s t := by
  obtain ⟨i, hready, ht, ⟨w, got, hseq, hlen, hdec⟩ | ⟨w, hseq, -⟩⟩ | hmove := step_next_cases hstep
  · obtain ⟨-, hi, -⟩ := decodeWord_ok_fields (decodeCommand_ok.mp hdec).1
    exact .inl ⟨i, w, got, hi, hready, ht, hseq, hlen, hdec⟩
  · exact absurd hseq (h.2 w)
  · exact .inr hmove

/-- Settles O14: a command leaves RND 0 and a response in SEQ, and a move brings no micro-operation. -/
theorem stepKeepsSettled : Obligations.StepKeepsSettled := by
  intro s t h hstep
  obtain ⟨i, w, got, hi, hready, rfl, -⟩ | hmove := step_settled_cases h hstep
  · obtain ⟨w', p, hseq⟩ := State.effect_seq (s := s.withSeq .idle) hi
    exact ⟨State.effect_rnd hready hi h.1, by simp [hseq]⟩
  · exact hmove.settled h

/-! ### Progress -/

/-- Only a MICRO word that is no micro-operation is refused before it runs (R66). -/
theorem State.nextAction_refuse {s : State} {r : Refusal} (h : s.nextAction = .refuse r) : ∃ w, s.seq = .micro w := by
  have he : s.engineAction = .refuse r := by
    unfold State.nextAction at h
    split at h
    · cases h
    · cases h
    · exact h
    all_goals cases h
  cases hseq : s.seq with
  | micro w => exact ⟨w, rfl⟩
  | idle | respond => simp [State.engineAction, hseq] at he
  | dout p => cases p <;> simp [State.engineAction, hseq] at he
  | payload w got =>
    obtain hlen | hlen := Nat.lt_or_ge got.length (lenField w)
    · cases (State.engineAction_payload_missing hseq hlen).symm.trans he
    · rw [State.engineAction_payload_complete hseq hlen, State.runCommand] at he
      split at he <;> cases he

theorem State.Inv.ready {s : State} (h : s.Inv) (i : Instr) : s.Ready i := by
  cases i with
  | write | sum | pad => exact h.bufOk
  | absorbBlock => exact h.blk_length
  | reset | size | blockSize | marshal | unmarshal => trivial
  | keccakF | round | theta | rho | pi | chi | iota | squeeze => trivial

/-- Settles O15: every instruction's inputs are well formed, and a settled engine holds no MICRO word to refuse. -/
theorem stepNeverStops : Obligations.StepNeverStops := by
  intro s h hsettled
  match hact : s.nextAction with
  | .run i s' =>
    obtain ⟨-, rfl, -⟩ := State.nextAction_run hact
    exact ⟨_, (step_of_run hact).trans (exec_of_ready ((h.withSeq (q := .idle) trivial).ready i))⟩
  | .goto t => exact ⟨t, step_of_goto hact⟩
  | .refuse r =>
    obtain ⟨w, hseq⟩ := State.nextAction_refuse hact
    exact absurd hseq (hsettled.2 w)

/-! ### CFG and the record -/

theorem Move.variant_out {s t : State} (hm : Move s t) :
    t.variant = s.variant ∧ (t.out = s.out ∨ ∃ d, t.out = s.out ++ [d]) := by
  cases hm with
  | ports | release | takeWord | takeByte | illegal | drained => exact ⟨rfl, .inl rfl⟩
  | giveWord | giveByte => exact ⟨rfl, .inr ⟨_, rfl⟩⟩

/-- Settles O16: an instruction delivers nothing, and a move at most one transfer. -/
theorem configurationAndRecord : Obligations.ConfigurationAndRecord := by
  intro s t hstep
  obtain ⟨i, -, rfl, -⟩ | hmove := step_next_cases hstep
  · obtain ⟨hvariant, -, -, hout⟩ := (s.withSeq .idle).effect_frame i
    exact ⟨hvariant, .inl hout⟩
  · exact hmove.variant_out

/-! ### The state after reset -/

/-- Settles O11 by the fields of `State.resetOf`. -/
theorem resetState : Obligations.ResetState :=
  ⟨⟨Config.variant, rfl⟩, fun _ => ⟨Lanes.get_zero, rfl, rfl, rfl, rfl, rfl, rfl⟩⟩

/-- Settles O12. -/
theorem resetMeetsInvariant : Obligations.ResetMeetsInvariant :=
  ⟨State.resetOf_inv _, State.resetOf_settled _, fun v => ⟨State.resetOf_inv v, State.resetOf_settled v⟩⟩

end Sys2Proof.Machine
end

section
/-! PROOFS. The engine at its ports (R60 to R63, R234, R236): the instruction it runs, the four transfers, and the
waits, each as one step. -/

namespace Sys2Proof.Machine

/-! ### The engine's action in each stage -/

section
variable {s : State}

theorem step_running {t : State} (hrun : s.Running) (h : s.engineAction = .goto t) : step s = .next t :=
  step_of_goto ((State.nextAction_running hrun.1 hrun.2).trans h)

theorem step_running_exec {s' : State} {i : Instr} (hrun : s.Running) (h : s.engineAction = .run i s') :
    step s = exec i s' :=
  step_of_run ((State.nextAction_running hrun.1 hrun.2).trans h)

theorem State.running_of_head {e : HostEvent} {rest : List HostEvent} (hn : s.rstN = true) (hh : s.host = e :: rest)
    (he : e.isRst = false) : s.Running := by
  refine ⟨hn, fun e' he' => ?_⟩
  rw [hh] at he'
  obtain rfl := Option.mem_some_iff.mp he'
  exact he

theorem State.running_of_nil (hn : s.rstN = true) (hh : s.host = []) : s.Running := by
  refine ⟨hn, fun e he => ?_⟩
  rw [hh] at he
  cases he

theorem State.engineAction_idle (hseq : s.seq = .idle) : s.engineAction = .goto s.idleTransfer := by
  simp only [State.engineAction, hseq]

theorem State.engineAction_micro {w : Word} (hseq : s.seq = .micro w) : s.engineAction = s.runMicro w := by
  simp only [State.engineAction, hseq]

theorem State.engineAction_respond {w : Word} {p : List Byte} (hseq : s.seq = .respond w p) :
    s.engineAction = .goto (s.rspTransfer w p) := by
  simp only [State.engineAction, hseq]

theorem State.engineAction_dout {b : Byte} {p : List Byte} (hseq : s.seq = .dout (b :: p)) :
    s.engineAction = .goto (s.doutTransfer b p) := by
  simp only [State.engineAction, hseq]

/-! ### The instruction that SEQ holds -/

theorem step_command {w : Word} {got : List Byte} {i : Instr} (hrun : s.Running) (hseq : s.seq = .payload w got)
    (hdec : decodeCommand w got = .ok i) : step s = exec i (s.withSeq .idle) := by
  have hlen := (decodeCommand_ok.mp hdec).2
  refine step_running_exec hrun ((State.engineAction_payload_complete hseq hlen.ge).trans ?_)
  simp only [State.runCommand, hdec]

theorem step_micro {w : Word} {i : Instr} (hrun : s.Running) (hseq : s.seq = .micro w)
    (hdec : decodeMicro w = .ok i) : step s = exec i (s.withSeq .idle) := by
  refine step_running_exec hrun ((State.engineAction_micro hseq).trans ?_)
  simp only [State.runMicro, hdec]

theorem step_micro_refused {w : Word} {e : DecodeError} (hrun : s.Running) (hseq : s.seq = .micro w)
    (hdec : decodeMicro w = .error e) : step s = .refused (.illFormedMicro e) := by
  refine step_of_refuse ((State.nextAction_running hrun.1 hrun.2).trans ((State.engineAction_micro hseq).trans ?_))
  simp only [State.runMicro, hdec]

end

theorem State.placeWord_running (s : State) (w : Word) : (s.placeWord w).Running := by
  refine ⟨rfl, fun e he => ?_⟩
  have hhead : (s.host.dropWhile HostEvent.isRst).head? = some e := he
  have hnot := List.head?_dropWhile_not HostEvent.isRst s.host
  rwa [hhead] at hnot

theorem decodeTableWord_eq_some {n w : Nat} {i : Instr} (h : decodeTableWord n w = some i) :
    decodeEither (tableWord n w) (tablePayload (tableWord n w)) = .ok i := by
  unfold decodeTableWord at h
  split at h
  · next hj => rw [hj, Option.some.inj h]
  · cases h

/-- The step of a placed word, by the space the word is of (log 15). -/
theorem step_placeWord {w : Word} {i : Instr} (s : State) (h : decodeEither w (tablePayload w) = .ok i) :
    step (s.placeWord w) = exec i ((s.placeWord w).withSeq .idle) := by
  have hrun := s.placeWord_running w
  cases hm : inMicroSpace w with
  | true =>
    refine step_micro hrun (w := w) (by simp [State.placeWord, hm]) ?_
    rwa [decodeEither, if_pos hm] at h
  | false =>
    refine step_command hrun (w := w) (got := tablePayload w) (by simp [State.placeWord, hm]) ?_
    rw [decodeEither, hm] at h
    exact decodeCommand_ok.mpr ⟨h, by simp [tablePayload, hm]⟩

/-- Settles O5: a complete command, a MICRO word, and a placed word as one or the other. -/
theorem stepRunsDecodedInstruction : Obligations.StepRunsDecodedInstruction := fun s _ =>
  ⟨fun hrun _ _ hseq hdec => step_command hrun hseq hdec, fun hrun _ hseq hdec => step_micro hrun hseq hdec,
    fun _ h => step_placeWord s (decodeTableWord_eq_some h)⟩

/-- Settles O48: each check of `exec` fails with its own name, and so does the decoder of MICRO words. -/
theorem illFormedInputsAreRefused : Obligations.IllFormedInputsAreRefused := fun _ _ _ =>
  ⟨fun h => if_neg h, fun h => ⟨if_neg h, if_neg h, if_neg h⟩,
    fun _ _ hrun hseq hdec => step_micro_refused hrun hseq hdec⟩

/-! ### The port signals -/

section
variable {s : State} (hn : s.rstN = true)
include hn

theorem State.cmdReady_iff : s.cmdReady = true ↔ s.seq = .idle := by
  cases hseq : s.seq <;> simp [State.cmdReady, hseq, hn]

theorem State.dinReady_iff : s.dinReady = true ↔ ∃ w got, s.seq = .payload w got ∧ got.length < lenField w := by
  cases hseq : s.seq <;> simp [State.dinReady, hseq, hn]

theorem State.rspValid_iff : s.rspValid = true ↔ ∃ w p, s.seq = .respond w p := by
  cases hseq : s.seq <;> simp [State.rspValid, hseq, hn]

theorem State.doutValid_iff : s.doutValid = true ↔ ∃ b p, s.seq = .dout (b :: p) := by
  cases hseq : s.seq with
  | dout p => cases p <;> simp [State.doutValid, hseq, hn]
  | idle | payload | micro | respond => simp [State.doutValid, hseq]

end

/-- A step that delivers is the taking of a response word or byte that SEQ offers. -/
theorem step_delivers {s t : State} {d : Delivered} (hstep : step s = .next t) (hout : t.out = s.out ++ [d]) :
    (∃ w p, s.seq = .respond w p ∧ d = .word w) ∨ ∃ b p, s.seq = .dout (b :: p) ∧ d = .byte b := by
  have hsilent (h : t.out = s.out) : False := by
    rw [h] at hout
    simpa using congrArg List.length hout
  obtain ⟨i, -, rfl, -⟩ | hmove := step_next_cases hstep
  · obtain ⟨-, -, -, hkeep⟩ := (s.withSeq .idle).effect_frame i
    exact (hsilent hkeep).elim
  · cases hmove with
    | ports | release | takeWord | takeByte | illegal | drained => exact (hsilent rfl).elim
    | giveWord rest hseq => exact .inl ⟨_, _, hseq, (List.singleton_inj.mp (List.append_cancel_left hout)).symm⟩
    | giveByte rest hseq => exact .inr ⟨_, _, hseq, (List.singleton_inj.mp (List.append_cancel_left hout)).symm⟩

/-- Settles O51: each signal is the stage of SEQ that offers its channel, and so is each delivery. -/
theorem portSignals : Obligations.PortSignals := by
  refine fun s hn => ⟨State.cmdReady_iff hn, State.dinReady_iff hn, State.rspValid_iff hn, State.doutValid_iff hn,
    fun t w hstep hout => ?_, fun t b hstep hout => ?_⟩
  · obtain ⟨w', p, hseq, -⟩ | ⟨_, _, _, hd⟩ := step_delivers hstep hout
    · exact (State.rspValid_iff hn).mpr ⟨w', p, hseq⟩
    · cases hd
  · obtain ⟨_, _, _, hd⟩ | ⟨b', p, hseq, -⟩ := step_delivers hstep hout
    · cases hd
    · exact (State.doutValid_iff hn).mpr ⟨b', p, hseq⟩

/-! ### The four transfers -/

theorem afterWord_eq (p : List Byte) : afterWord p = if p = [] then .idle else .dout p := by
  cases p <;> rfl

section
variable {s : State} {rest : List HostEvent} (hn : s.rstN = true)
include hn

theorem step_idle_cmdWord {w : Word} (hseq : s.seq = .idle) (hh : s.host = .cmdWord w :: rest) :
    step s = .next { s with seq := .payload w [], host := rest } := by
  have htake : s.idleTransfer = { s with seq := .payload w [], host := rest } := by
    simp only [State.idleTransfer, hh]
    rfl
  exact htake ▸ step_running (State.running_of_head hn hh rfl) (State.engineAction_idle hseq)

theorem step_respond_takeRsp {w : Word} {p : List Byte} (hseq : s.seq = .respond w p)
    (hh : s.host = .takeRsp :: rest) :
    step s = .next { s with seq := afterWord p, host := rest, out := s.out ++ [.word w] } := by
  have htake : s.rspTransfer w p = { s with seq := afterWord p, host := rest, out := s.out ++ [.word w] } := by
    simp only [State.rspTransfer, hh]
    rfl
  exact htake ▸ step_running (State.running_of_head hn hh rfl) (State.engineAction_respond hseq)

theorem step_dout_takeDout {b : Byte} {p : List Byte} (hseq : s.seq = .dout (b :: p))
    (hh : s.host = .takeDout :: rest) :
    step s = .next { s with seq := afterWord p, host := rest, out := s.out ++ [.byte b] } := by
  have htake : s.doutTransfer b p = { s with seq := afterWord p, host := rest, out := s.out ++ [.byte b] } := by
    simp only [State.doutTransfer, hh]
    rfl
  exact htake ▸ step_running (State.running_of_head hn hh rfl) (State.engineAction_dout hseq)

end

/-- Settles O6: each transfer with its channel's signal. -/
theorem channelTransfers : Obligations.ChannelTransfers := by
  refine fun s rest hn => ⟨fun w hseq hh => ?_, fun w got b hseq hlen hh => ?_, fun w p hseq hh => ?_,
    fun b p hseq hh => ?_⟩
  · exact ⟨(State.cmdReady_iff hn).mpr hseq, step_idle_cmdWord hn hseq hh⟩
  · exact ⟨(State.dinReady_iff hn).mpr ⟨w, got, hseq, hlen⟩, step_payload_dinByte hseq hn hlen hh⟩
  · rw [← afterWord_eq]
    exact ⟨(State.rspValid_iff hn).mpr ⟨w, p, hseq⟩, step_respond_takeRsp hn hseq hh⟩
  · rw [← afterWord_eq]
    exact ⟨(State.doutValid_iff hn).mpr ⟨b, p, hseq⟩, step_dout_takeDout hn hseq hh⟩

/-- Settles O8: the word's four bytes take its place in the script. -/
theorem earlyCommandWordIsPayload : Obligations.EarlyCommandWordIsPayload := by
  intro s w w' got rest hn hseq hlen hh
  have hsplit : s.payloadTransfer w got = s.withHost ((wordBytes w').map .dinByte ++ rest) := by
    simp only [State.payloadTransfer, hh]
  exact (step_running (State.running_of_head hn hh rfl) (State.engineAction_payload_missing hseq hlen)).trans
    (congrArg Host.Outcome.next hsplit)

/-! ### The waits -/

/-- The engine is in a stage in which it cannot take the host's event (R234, R236). -/
def Seq.Blocks (e : HostEvent) : Seq → Prop
  | .idle => ∀ w, e ≠ .cmdWord w
  | .payload w got => got.length < lenField w ∧ (e = .takeRsp ∨ e = .takeDout)
  | .respond _ _ => e ≠ .takeRsp
  | .dout (_ :: _) => e ≠ .takeDout
  | .micro _ | .dout [] => False

/-- Whatever the stage, the engine's action in front of an event it cannot take is to let the host wait. -/
theorem State.engineAction_blocked {s : State} {e : HostEvent} {rest : List HostEvent} (hh : s.host = e :: rest)
    (he : e.isRst = false) (hb : s.seq.Blocks e) : s.engineAction = .goto s.hostWaits := by
  cases hseq : s.seq with
  | idle =>
    rw [hseq] at hb
    rw [State.engineAction_idle hseq, State.idleTransfer, hh]
    cases e with
    | cmdWord w => exact absurd rfl (hb w)
    | dinByte | takeRsp | takeDout => rfl
    | rstLow | rstHigh => cases he
  | payload w got =>
    rw [hseq] at hb
    obtain ⟨hlen, rfl | rfl⟩ := hb <;> rw [State.engineAction_payload_missing hseq hlen, State.payloadTransfer, hh]
  | micro w => rw [hseq] at hb; cases hb
  | respond w p =>
    rw [hseq] at hb
    rw [State.engineAction_respond hseq, State.rspTransfer, hh]
    cases e with
    | takeRsp => exact absurd rfl hb
    | cmdWord | dinByte | takeDout => rfl
    | rstLow | rstHigh => cases he
  | dout p =>
    rw [hseq] at hb
    cases p with
    | nil => cases hb
    | cons b p =>
      rw [State.engineAction_dout hseq, State.doutTransfer, hh]
      cases e with
      | takeDout => exact absurd rfl hb
      | cmdWord | dinByte | takeRsp => rfl
      | rstLow | rstHigh => cases he

/-- With rst_n high only its fall changes it (R230). -/
theorem HostEvent.changesRst_high {e : HostEvent} : e.changesRst true = false ↔ e ≠ .rstLow := by
  cases e <;> simp [HostEvent.changesRst]

theorem HostEvent.ne_rstLow {e : HostEvent} (he : e.isRst = false) : e ≠ .rstLow := by
  rintro rfl
  cases he

section
variable {s : State} {e : HostEvent} {rest : List HostEvent} (hn : s.rstN = true) (hh : s.host = e :: rest)
  (he : e.isRst = false) (hb : s.seq.Blocks e)
include hn hh he hb

theorem step_blocked : step s = .next s.hostWaits :=
  step_running (State.running_of_head hn hh he) (State.engineAction_blocked hh he hb)

/-- With no fall of rst_n ahead the host is stuck (R236). -/
theorem step_blocked_stuck (hrest : ∀ e' ∈ rest, e' ≠ .rstLow) : step s = .next s := by
  rw [step_blocked hn hh he hb, State.hostWaits_stuck]
  rw [hn, hh]
  exact List.forall_mem_cons.mpr ⟨HostEvent.changesRst_high.mpr (HostEvent.ne_rstLow he),
    fun e' he' => HostEvent.changesRst_high.mpr (hrest e' he')⟩

/-- With a fall of rst_n ahead the host goes on with it. -/
theorem step_blocked_fall {pre post : List HostEvent} (hrest : rest = pre ++ .rstLow :: post)
    (hpre : ∀ e' ∈ pre, e' ≠ .rstLow) : step s = .next (s.withHost (.rstLow :: post)) := by
  have hscript : s.host = (e :: pre) ++ .rstLow :: post := by rw [hh, hrest, List.cons_append]
  rw [step_blocked hn hh he hb, State.hostWaits_change hscript]
  · rw [hn]; rfl
  · rw [hn]
    exact List.forall_mem_cons.mpr ⟨HostEvent.changesRst_high.mpr (HostEvent.ne_rstLow he),
      fun e' he' => HostEvent.changesRst_high.mpr (hpre e' he')⟩

end

/-- Settles O52: in each of the four stages the engine is blocked, and a blocked host waits for the fall. -/
theorem onlyResetEndsAWait : Obligations.OnlyResetEndsAWait := by
  intro s e rest hn hh he hstage
  have hb : s.seq.Blocks e := by
    obtain ⟨hseq, h⟩ | ⟨w, got, hseq, h⟩ | ⟨w, p, hseq, h⟩ | ⟨b, p, hseq, h⟩ := hstage <;> rw [hseq] <;> exact h
  exact ⟨step_blocked_stuck hn hh he hb, fun _ _ => step_blocked_fall hn hh he hb⟩

section
variable {s : State} (hh : s.host = [])
include hh

theorem State.idleTransfer_nil : s.idleTransfer = s := by simp only [State.idleTransfer, hh]

theorem State.payloadTransfer_nil (w : Word) (got : List Byte) : s.payloadTransfer w got = s := by
  simp only [State.payloadTransfer, hh]

theorem State.rspTransfer_nil (w : Word) (p : List Byte) : s.rspTransfer w p = s := by
  simp only [State.rspTransfer, hh]

theorem State.doutTransfer_nil (b : Byte) (p : List Byte) : s.doutTransfer b p = s := by
  simp only [State.doutTransfer, hh]

end

/-- Settles O7: without a host event no transfer happens, and a command word in front of an untaken response
blocks. -/
theorem engineWaits : Obligations.EngineWaits := by
  refine fun s hn => ⟨fun hh => ?_, fun w rest hh hrest hstage => ?_⟩
  · have hstay {t : State} (ht : t = s) (hact : s.engineAction = .goto t) : step s = .next s :=
      (step_running (State.running_of_nil hn hh) hact).trans (congrArg Host.Outcome.next ht)
    refine ⟨fun hseq => ⟨(State.cmdReady_iff hn).mpr hseq, ?_⟩,
      fun w got hseq hlen => ⟨(State.dinReady_iff hn).mpr ⟨w, got, hseq, hlen⟩, ?_⟩,
      fun w p hseq => ⟨(State.rspValid_iff hn).mpr ⟨w, p, hseq⟩, ?_⟩,
      fun b p hseq => ⟨(State.doutValid_iff hn).mpr ⟨b, p, hseq⟩, ?_⟩⟩
    · exact hstay (State.idleTransfer_nil hh) (State.engineAction_idle hseq)
    · exact hstay (State.payloadTransfer_nil hh w got) (State.engineAction_payload_missing hseq hlen)
    · exact hstay (State.rspTransfer_nil hh w p) (State.engineAction_respond hseq)
    · exact hstay (State.doutTransfer_nil hh b p) (State.engineAction_dout hseq)
  · obtain ⟨hidle, hb⟩ : s.seq ≠ .idle ∧ s.seq.Blocks (.cmdWord w) := by
      obtain ⟨w', p, hseq⟩ | ⟨b, p, hseq⟩ := hstage <;> rw [hseq] <;> exact ⟨nofun, nofun⟩
    exact ⟨Bool.eq_false_iff.mpr (mt (State.cmdReady_iff hn).mp hidle), step_blocked_stuck hn hh rfl hb hrest⟩

end Sys2Proof.Machine
end

section
/-! PROOFS. The observable state as a machine of its own (R48, R113, R239): every host command is a function of the
observable state, which it changes and answers by; hidden state, queries, snapshots and whole messages follow. -/

namespace Sys2Proof.Machine

/-! ### Commands on the observable state -/

/-- RESET on the observable state (R154). -/
def Arch.clear (c : Arch) : Arch := ⟨Lanes.zero, [], 0, .absorbing, 0, c.variant⟩

/-- MARSHAL on the observable state (R180, R181). -/
def Arch.snapshot (c : Arch) : List Byte :=
  snapTag ++ cfgBytes c.variant ++ [phaseByte c.phase] ++ leBytes c.absorbed ++ stateBytes c.a ++ [c.bufLen]
    ++ c.bufUsed ++ zeros (c.variant.rate - c.bufLen.toNat)

/-- UNMARSHAL's writes to the observable state (R182). -/
def Arch.restore (c : Arch) (p : List Byte) : Arch where
  a := lanesOf (slice p 16 216)
  bufUsed := (p.drop 217).take (p.getD 216 0).toNat
  bufLen := p.getD 216 0
  phase := .absorbing
  absorbed := le64 (slice p 8 16)
  variant := c.variant

/-- The observable state after a host command; a micro-operation is not the host's. -/
def Arch.after (c : Arch) : Instr → Arch
  | .write p => c.write p
  | .reset => c.clear
  | .unmarshal p => if snapOk c.variant p then c.restore p else c
  | .sum | .size | .blockSize | .marshal => c
  | .keccakF _ | .round _ _ | .theta _ | .rho _ | .pi _ | .chi _ | .iota _ _ => c
  | .absorbBlock _ | .pad | .squeeze _ => c

/-- The answer of a host command. -/
def Arch.answer (c : Arch) : Instr → Option (Word × List Byte)
  | .write _ | .reset => some (rspWord .ok 0, [])
  | .sum => c.sumReply
  | .size => some (rspWord .ok 1, [c.variant.outlenByte])
  | .blockSize => some (rspWord .ok 1, [c.variant.rateByte])
  | .marshal => some (rspWord .ok c.snapshot.length, c.snapshot)
  | .unmarshal p => some (rspWord (if snapOk c.variant p then .ok else .corruptState) 0, [])
  | .keccakF _ | .round _ _ | .theta _ | .rho _ | .pi _ | .chi _ | .iota _ _ => none
  | .absorbBlock _ | .pad | .squeeze _ => none

section
variable {s : State}

theorem State.clear_arch (s : State) : s.clear.arch = s.arch.clear := by
  simp [State.arch, Arch.clear, State.bufUsed]

theorem State.restore_arch {p : List Byte} (hp : SnapGood s.variant p) : (s.restore p).arch = s.arch.restore p := by
  rw [State.arch, State.restore_bufUsed hp]
  rfl

/-- The simulation: a host command on a well-formed buffer does to the observable state what `Arch.after` says, and
answers what `Arch.answer` says. -/
theorem State.effect_arch (h : s.BufOk) {i : Instr} (hi : i.hostIssuable = true) : (s.effect i).BufOk
    ∧ (s.effect i).arch = s.arch.after i ∧ (s.effect i).reply = s.arch.answer i := by
  have answered {t : State} {c : Arch} (ht : t.BufOk) (harch : t.arch = c) (st : Status) (p : List Byte) :
      (t.respond st p).BufOk ∧ (t.respond st p).arch = c ∧ (t.respond st p).reply = some (rspWord st p.length, p) :=
    ⟨ht, (t.respond_arch st p).trans harch, t.respond_reply st p⟩
  cases i with
  | write p =>
    rw [State.effect, Arch.after, Arch.answer]
    exact answered (State.writeBytes_bufOk h p) (State.writeBytes_arch h p) .ok []
  | sum =>
    rw [State.effect, Arch.after, Arch.answer]
    obtain ⟨hok, harch, -⟩ := answered (State.sumOn_bufOk h) s.sumOn_arch .ok s.sumOn.sqz
    exact ⟨hok, harch, s.sumOn_reply⟩
  | reset =>
    rw [State.effect, Arch.after, Arch.answer]
    exact answered (State.clear_bufOk h) s.clear_arch .ok []
  | size | blockSize | marshal =>
    rw [State.effect, Arch.after, Arch.answer]
    exact answered h rfl .ok _
  | unmarshal p =>
    have hv : s.arch.variant = s.variant := rfl
    rw [State.effect, Arch.after, Arch.answer, hv]
    split
    · next hok =>
      have hp := (snapOk_iff _ _).mp hok
      exact answered (State.restore_bufOk h hp) (State.restore_arch hp) .ok []
    · exact answered h rfl .corruptState []
  | keccakF | round | theta | rho | pi | chi | iota | absorbBlock | pad | squeeze => cases hi

theorem State.ready_of_bufOk (h : s.BufOk) {i : Instr} (hi : i.hostIssuable = true) : s.Ready i := by
  cases i with
  | write | sum => exact h
  | reset | size | blockSize | marshal | unmarshal => trivial
  | keccakF | round | theta | rho | pi | chi | iota | absorbBlock | pad | squeeze => cases hi

theorem exec_of_bufOk (h : s.BufOk) {i : Instr} (hi : i.hostIssuable = true) : exec i s = .next (s.effect i) :=
  exec_of_ready (State.ready_of_bufOk h hi)

end

/-- Settles O31: both states run the command to what their one observable state says. -/
theorem hiddenStateStaysHidden : Obligations.HiddenStateStaysHidden := by
  intro s r i hs hr harch hi
  obtain ⟨hs', hsa, hsr⟩ := State.effect_arch hs hi
  obtain ⟨hr', hra, hrr⟩ := State.effect_arch hr hi
  exact ⟨_, _, exec_of_bufOk hs hi, exec_of_bufOk hr hi, by rw [hsr, hrr, harch], by rw [hsa, hra, harch], hs', hr'⟩

/-! ### The queries -/

/-- SUM, SIZE, BLOCKSIZE and MARSHAL (R48). -/
theorem Arch.after_query (c : Arch) {i : Instr} (hi : i ∈ [Instr.sum, .size, .blockSize, .marshal]) :
    i.hostIssuable = true ∧ c.after i = c := by
  simp only [List.mem_cons, List.not_mem_nil, or_false] at hi
  obtain rfl | rfl | rfl | rfl := hi <;> exact ⟨rfl, rfl⟩

/-- Settles O30: a query leaves the observable state, so its second answer is its first. -/
theorem queriesAreIdempotent : Obligations.QueriesAreIdempotent := by
  intro s i h hmem
  obtain ⟨hi, hafter⟩ := s.arch.after_query hmem
  obtain ⟨ht, hta, htr⟩ := State.effect_arch h hi
  obtain ⟨-, hua, hur⟩ := State.effect_arch ht hi
  rw [hafter] at hta
  rw [hta, hafter] at hua
  exact ⟨_, _, exec_of_bufOk h hi, exec_of_bufOk ht hi, by rw [hur, htr, hta], hta, hua⟩

/-! ### What changes the observable state -/

theorem Move.arch {s t : State} (hm : Move s t) :
    t.arch = s.arch ∨ s.rstN = false ∧ ∃ rest, s.host = .rstHigh :: rest := by
  cases hm with
  | ports | takeWord | takeByte | illegal | giveWord | giveByte | drained => exact .inl rfl
  | release rest hn hh => exact .inr ⟨hn, rest, hh⟩

/-- The commands that are no query (R48). -/
theorem Arch.after_ne {c : Arch} {i : Instr} (h : c.after i ≠ c) :
    i = .write i.payload ∨ i = .reset ∨ i = .unmarshal i.payload := by
  cases i with
  | write => exact .inl rfl
  | reset => exact .inr (.inl rfl)
  | unmarshal => exact .inr (.inr rfl)
  | sum | size | blockSize | marshal => exact absurd rfl h
  | keccakF | round | theta | rho | pi | chi | iota | absorbBlock | pad | squeeze => exact absurd rfl h

/-- Settles O17: a move changes the observable state by the rise of rst_n only, and a command as `Arch.after` says. -/
theorem onlyThreeCommandsAndResetChangeState : Obligations.OnlyThreeCommandsAndResetChangeState := by
  intro s t hinv hsettled hstep hne
  obtain ⟨i, w, got, hi, -, rfl, hseq, hlen, hdec⟩ | hmove := step_settled_cases hsettled hstep
  · have hidle : (s.withSeq .idle).BufOk := hinv.bufOk
    obtain ⟨-, hafter, -⟩ := State.effect_arch hidle hi
    rw [hafter] at hne
    obtain ⟨hword, hp⟩ := decodeCommand_ok.mp hdec
    obtain ⟨-, -, hpayload⟩ := decodeWord_ok_fields hword
    refine .inr ⟨w, got, hseq, hlen, ?_⟩
    rw [hdec, ← hpayload hp]
    exact (Arch.after_ne (c := s.arch) hne).imp (congrArg _) (Or.imp (congrArg _) (congrArg _))
  · exact .inl (hmove.arch.resolve_left hne)

/-! ### Snapshots -/

/-- The first eight bytes of a snapshot, whose PHASE is ABSORBING (R180). -/
theorem State.snapshot_getD_of_lt_8 {s : State} (hphase : s.phase = .absorbing) {k : Nat} (hk : k < 8) :
    s.snapshot.getD k 0 = (snapTag ++ cfgBytes s.variant ++ [0x00]).getD k 0 := by
  have hhead := s.snapshot_take_8
  rw [hphase, phaseByte] at hhead
  rw [List.getD_eq_getElem?_getD, ← List.getElem?_take_of_lt hk, hhead, List.getD_eq_getElem?_getD]

section
variable {s : State} (h : s.BufOk) (hphase : s.phase = .absorbing)
include h hphase

/-- MARSHAL's snapshot passes every check of UNMARSHAL (R183). -/
theorem State.snapshot_good : SnapGood s.variant s.snapshot := by
  have hbyte (k : Nat) (hk : k < 8) := State.snapshot_getD_of_lt_8 hphase hk
  have htag : s.snapshot.take 4 = snapTag := by
    rw [← Nat.min_eq_left (show 4 ≤ 8 by decide), ← List.take_take, State.snapshot_take_8]
    rfl
  have hds : s.variant.dsByte = 0x01 := by cases s.variant <;> rfl
  have hlen : (s.snapshot.getD 216 0).toNat ≤ s.variant.rate - 1 := by
    rw [State.snapshot_bufLen_byte]
    exact Nat.le_sub_one_of_lt h.2
  exact ⟨State.snapshot_length h, htag, hbyte 4 (by decide), hbyte 5 (by decide), (hbyte 6 (by decide)).trans hds,
    hbyte 7 (by decide), hlen⟩

/-- UNMARSHAL of a snapshot restores the observable state it was taken of (R185). -/
theorem Arch.restore_snapshot {c : Arch} (hv : c.variant = s.variant) : c.restore s.snapshot = s.arch := by
  have habsorbed : slice s.snapshot 8 16 = leBytes s.absorbed := by
    rw [slice_eq_take_drop s.snapshot 8 8, State.snapshot_drop_8, List.take_left' (leBytes_length _)]
  have hlanes : slice s.snapshot 16 216 = stateBytes s.a := by
    rw [slice_eq_take_drop s.snapshot 16 200, State.snapshot_drop_16, List.take_left' (stateBytes_length _)]
  have hused : (s.snapshot.drop 217).take s.bufLen.toNat = s.bufUsed := by
    rw [State.snapshot_drop_217, List.take_left' (State.bufUsed_length h)]
  rw [Arch.restore, State.snapshot_bufLen_byte, habsorbed, hlanes, hused, le64_leBytes, lanesOf_stateBytes, hv,
    State.arch, hphase]

end

/-- Replies to host commands are a function of the observable state. -/
theorem replies_congr_arch {cs : List Instr} (hcs : ∀ c ∈ cs, c.hostIssuable = true) {s r : State} (hs : s.BufOk)
    (hr : r.BufOk) (harch : s.arch = r.arch) : replies cs s = replies cs r ∧ (replies cs s).length = cs.length := by
  induction cs generalizing s r with
  | nil => exact ⟨rfl, rfl⟩
  | cons i is ih =>
    obtain ⟨hi, his⟩ := List.forall_mem_cons.mp hcs
    obtain ⟨hs', hsa, hsr⟩ := State.effect_arch hs hi
    obtain ⟨hr', hra, hrr⟩ := State.effect_arch hr hi
    obtain ⟨heq, hlen⟩ := ih his hs' hr' (by rw [hsa, hra, harch])
    rw [replies_cons_of_next (exec_of_bufOk hs hi), replies_cons_of_next (exec_of_bufOk hr hi), hsr, hrr, harch, heq]
    exact ⟨rfl, by rw [List.length_cons, ← heq, hlen, List.length_cons]⟩

theorem hostIssuable_of_isWriteOrSum {i : Instr} (h : isWriteOrSum i = true) : i.hostIssuable = true := by
  cases i with
  | write | sum => rfl
  | reset | size | blockSize | marshal | unmarshal => rfl
  | keccakF | round | theta | rho | pi | chi | iota | absorbBlock | pad | squeeze => cases h

/-- Settles O34: the restored observable state is the original's, on which alone all later replies depend. -/
theorem roundTripLaw : Obligations.RoundTripLaw := by
  intro h r hok hphase hr hv
  have hgood : SnapGood r.variant h.snapshot := hv ▸ State.snapshot_good hok hphase
  have hr' : ((r.restore h.snapshot).respond .ok []).BufOk :=
    State.respond_bufOk (State.restore_bufOk hr hgood) .ok []
  have harch : ((r.restore h.snapshot).respond .ok []).arch = h.arch :=
    (State.respond_arch _ _ _).trans ((State.restore_arch hgood).trans (Arch.restore_snapshot hok hphase hv))
  exact ⟨_, _, h.snapshot, _, rfl, rfl, exec_unmarshal_accepted ((snapOk_iff _ _).mpr hgood), rfl, harch,
    fun cs hcs => replies_congr_arch (fun c hc => hostIssuable_of_isWriteOrSum (hcs c hc)) hr' hok harch⟩

end Sys2Proof.Machine
end

section
/-! PROOFS. The Sponge Core's micro-operations and the laws of WRITE and SUM that rest on them (R27, R130 to R136,
R151, R152). -/

namespace Sys2Proof.Machine

/-! ### ABSORB_BLOCK -/

/-- The view after the block XOR: the block's bytes XORed into the front, the capacity as it was (R130). -/
theorem stateBytes_xorBlock {blk : List Byte} (h : blk.length ≤ 200) (T : Lanes) : stateBytes (xorBlock blk T)
    = xorBytes ((stateBytes T).take blk.length) blk ++ (stateBytes T).drop blk.length := by
  have hlen : (xorBytes ((stateBytes T).take blk.length) blk).length = blk.length := by
    rw [xorBytes_length, List.length_take, stateBytes_length]; omega
  rw [xorBlock, memRead_front, stateBytes_memWrite T (by rw [hlen]; omega), hlen, List.take_zero, List.nil_append,
    Nat.zero_add]

theorem stateBytes_xorBlock_getD {blk : List Byte} (h : blk.length ≤ 200) (T : Lanes) {j : Nat}
    (hj : j < blk.length) : (stateBytes (xorBlock blk T)).getD j 0 = (stateBytes T).getD j 0 ^^^ blk.getD j 0 := by
  have hview : j < (stateBytes T).length := by rw [stateBytes_length]; omega
  have hfront : j < (xorBytes ((stateBytes T).take blk.length) blk).length := by
    rw [xorBytes_length, List.length_take]; omega
  rw [stateBytes_xorBlock h, List.getD_append _ _ _ _ hfront, List.getD_eq_getElem _ _ hfront,
    List.getD_eq_getElem _ _ hview, List.getD_eq_getElem _ _ hj]
  simp only [xorBytes, List.getElem_zipWith, List.getElem_take]

theorem stateBytes_xorBlock_drop {blk : List Byte} (h : blk.length ≤ 200) (T : Lanes) :
    (stateBytes (xorBlock blk T)).drop blk.length = (stateBytes T).drop blk.length := by
  rw [stateBytes_xorBlock h]
  refine List.drop_left' ?_
  rw [xorBytes_length, List.length_take, stateBytes_length]; omega

/-- Settles O44 by the view after the block XOR. -/
theorem absorbBlockXorsAndPermutes : Obligations.AbsorbBlockXorsAndPermutes := by
  intro s t hblk
  have h200 : s.blk.length ≤ 200 := hblk ▸ s.rate_lt.le
  refine ⟨microWord_plain 0x88 t, s.absorbOn t, xorBlock s.blk (s.lanes t), if_pos hblk, ?_, ?_,
    s.absorbOn_lanes t, ?_⟩
  · rw [← hblk]
    exact fun j => stateBytes_xorBlock_getD h200 _
  · rw [← hblk]
    exact stateBytes_xorBlock_drop h200 _
  · cases t <;> rfl

/-! ### PAD -/

theorem zeros_getD (n k : Nat) : (zeros n).getD k 0 = 0 := by
  rw [zeros, List.getD_eq_getElem?_getD, List.getElem?_replicate]
  split <;> rfl

section
variable {rate : Nat} (ds : Byte) {buf : List Byte}

theorem padBlock_take (h : buf.length < rate) : (padBlock rate ds buf).take buf.length = buf := by
  rw [padBlock, List.take_set_of_le (by omega), List.append_assoc, List.take_left]

/-- At the boundary one byte is both the domain byte and the last (R132). -/
theorem padBlock_last_full (h : buf.length + 1 = rate) : (padBlock rate ds buf).getD (rate - 1) 0 = ds ||| 0x80 := by
  subst h
  simp [padBlock, zeros]

theorem padBlock_zero {j : Nat} (hlo : buf.length < j) (hhi : j < rate - 1) : (padBlock rate ds buf).getD j 0 = 0 := by
  have hne : rate - 1 ≠ j := by omega
  have hpre : (buf ++ [ds]).length ≤ j := by simpa using hlo
  rw [padBlock, List.getD_eq_getElem?_getD, List.getElem?_set_ne hne, ← List.getD_eq_getElem?_getD,
    List.getD_append_right _ _ _ _ hpre, zeros_getD]

variable (h : buf.length + 1 < rate)
include h

theorem padBlock_ds : (padBlock rate ds buf).getD buf.length 0 = ds := by
  simp [padBlock, show rate - 1 ≠ buf.length by omega]

theorem padBlock_last : (padBlock rate ds buf).getD (rate - 1) 0 = 0x80 := by
  have hpre : (buf ++ [ds]).length ≤ rate - 1 := by
    rw [List.length_append, List.length_singleton]; omega
  have hmem : rate - 1 < (buf ++ [ds] ++ zeros (rate - buf.length - 1)).length := by
    rw [List.length_append, List.length_append, List.length_singleton, zeros_length]; omega
  have hzero : (buf ++ [ds] ++ zeros (rate - buf.length - 1)).getD (rate - 1) 0 = 0 := by
    rw [List.getD_append_right _ _ _ _ hpre, zeros_getD]
  rw [padBlock, hzero, List.getD_eq_getElem?_getD, List.getElem?_set_self hmem]
  rfl

end

/-- Settles O45, for n = BUFLEN. -/
theorem padGivesOneBlock : Obligations.PadGivesOneBlock := by
  intro s h
  have hn := State.bufUsed_length h
  have hds : s.variant.dsByte = 0x01 := by cases s.variant <;> rfl
  refine ⟨rfl, padBlock s.rate 0x01 s.bufUsed, ?_, padBlock_length _ (hn.trans_lt h.2), ?_, ?_, ?_⟩
  · rw [← hds]
    exact if_pos h
  · rw [← hn]
    exact padBlock_take _ (hn.trans_lt h.2)
  · rw [← hn]
    exact padBlock_last_full 0x01
  · rw [← hn]
    exact fun hlt => ⟨padBlock_ds _ hlt, padBlock_last _ hlt, fun j => padBlock_zero _⟩

/-! ### SQUEEZE -/

/-- Settles O46: both variants extract once, and the target is written back as it was. -/
theorem squeezeExtractsOnce : Obligations.SqueezeExtractsOnce := by
  intro s t
  have hout : squeezeOut s.rate s.outlen (s.lanes t) = ((stateBytes (s.lanes t)).take s.outlen, s.lanes t) :=
    (squeezeOut_variant s.variant _).trans (congrArg (·, s.lanes t) (memRead_front _ _))
  refine ⟨microWord_plain 0x8A t, ?_⟩
  change Host.Outcome.next (s.squeezeOn t) = _
  rw [State.squeezeOn, hout]
  cases t <;> rfl

/-- Settles O25: each of the three runs, PAD's block being of RATE bytes, and leaves what SUM does. -/
theorem sumIsItsMicroOperations : Obligations.SumIsItsMicroOperations := by
  intro s h
  have hpad : exec .pad s.duplicate = .next s.duplicate.padOn := if_pos h
  have hblk : s.duplicate.padOn.blk.length = s.duplicate.padOn.rate :=
    padBlock_length _ ((State.bufUsed_length h).trans_lt h.2)
  have habsorb : exec (.absorbBlock .s) s.duplicate.padOn = .next (s.duplicate.padOn.absorbOn .s) := if_pos hblk
  refine ⟨s.sumOn, ?_, ?_⟩
  · change execAll _ s.duplicate = _
    rw [execAll_cons_of_next hpad, execAll_cons_of_next habsorb]
    rfl
  · rw [exec_sum_of_bufOk h, State.respond, rspWord_ok]
    rfl

/-! ### WRITEs in a row -/

section
variable (s : State) (q : Seq) (hs : List HostEvent) (p : List Byte)

/-- WRITE's loop neither reads nor writes SEQ and the host's script. -/
theorem State.writeBytes_ports :
    ((s.withSeq q).withHost hs).writeBytes p = ((s.writeBytes p).withSeq q).withHost hs := by
  induction p generalizing s with
  | nil => rfl
  | cons b p ih =>
    have hbyte : ((s.withSeq q).withHost hs).writeByte b = ((s.writeByte b).withSeq q).withHost hs :=
      (apply_ite (fun u : State => (u.withSeq q).withHost hs) ((s.storeByte b).bufLen.toNat = s.rate)
        (s.storeByte b).absorbBuf (s.storeByte b)).symm
    rw [State.writeBytes_cons, hbyte, ih]
    rfl

theorem State.respond_writeBytes_respond (st : Status) (r : List Byte) :
    ((s.respond st r).writeBytes p).respond .ok [] = (s.writeBytes p).respond .ok [] := by
  obtain ⟨-, -, -, -, -, -, -, hhost, -⟩ := s.writeBytes_frame p
  have hports := s.writeBytes_ports (.respond (rspWord st r.length) r) s.host p
  refine (congrArg (State.respond · .ok []) hports).trans ?_
  rw [← hhost]
  rfl

end

/-- The WRITEs of some chunks in order leave the state of one WRITE of them all (R151). -/
theorem execAll_writes {s : State} (h : s.BufOk) (c : List Byte) (cs : List (List Byte)) :
    execAll ((c :: cs).map Instr.write) s = .next ((s.writeBytes (c ++ cs.flatten)).respond .ok []) := by
  induction cs generalizing s c with
  | nil =>
    rw [List.map_cons, execAll_cons_of_next (exec_write_of_bufOk h c), List.flatten_nil, List.append_nil]
    rfl
  | cons d ds ih =>
    have hc := State.respond_bufOk (State.writeBytes_bufOk h c) .ok []
    rw [List.map_cons, execAll_cons_of_next (exec_write_of_bufOk h c), ih hc, State.respond_writeBytes_respond,
      ← State.writeBytes_append, List.flatten_cons]

/-- Settles O21. -/
theorem chunkingLaw : Obligations.ChunkingLaw := fun _ c cs h =>
  ⟨_, exec_write_of_bufOk h _, execAll_writes h c cs⟩

/-- Settles O22: both counts grow by the payload's length, and ABSORBED does not wrap. -/
theorem absorbedCountsBuffered : Obligations.AbsorbedCountsBuffered := by
  intro s p h hcount hwrap
  obtain ⟨-, habsorbed, hvariant, -⟩ := s.writeBytes_frame p
  refine ⟨_, exec_write_of_bufOk h p, ?_⟩
  have hlen : (s.writeBytes p).absorbed.toNat = s.absorbed.toNat + p.length := by
    rw [habsorbed, BitVec.toNat_add, BitVec.toNat_ofNat]; omega
  have hrate : (s.writeBytes p).rate = s.rate := congrArg Variant.rate hvariant
  rw [State.respond_absorbed, State.respond_rate, State.respond_bufLen, hlen, hrate, State.writeBytes_bufLen_toNat h,
    ← hcount, Nat.mod_add_mod]

/-! ### The whole message -/

/-- The digest of a message whose bytes were all written after a RESET (R136). -/
theorem Arch.digest_write_clear (c : Arch) (M : List Byte) : (c.clear.write M).digest = messageDigest c.variant M := by
  have hds : c.variant.dsByte = 0x01 := by cases c.variant <;> rfl
  rw [messageDigest, squeezeOut_variant, memRead_front, hds]
  rfl

/-- Settles O26: after RESET the WRITEs leave the observable state of one WRITE of the message, and SUM its digest. -/
theorem wholeMessageDigest : Obligations.WholeMessageDigest := by
  intro s chunks hbuf
  have hclear : (s.clear.respond .ok []).BufOk := ⟨hbuf, Variant.rate_pos s.variant⟩
  obtain ⟨t, hexec, ht, harch⟩ : ∃ t : State, execAll (chunks.map Instr.write) (s.clear.respond .ok []) = .next t
      ∧ t.BufOk ∧ t.arch = s.arch.clear.write chunks.flatten := by
    cases chunks with
    | nil => exact ⟨_, rfl, hclear, State.writeBytes_arch (s := s.clear) hclear []⟩
    | cons c cs =>
      refine ⟨_, execAll_writes hclear c cs, State.writeBytes_bufOk hclear _, ?_⟩
      rw [State.respond_arch, State.writeBytes_arch hclear, State.respond_arch, State.clear_arch]
      rfl
  refine ⟨t, _, (execAll_cons_of_next rfl).trans hexec, exec_sum_of_bufOk ht, ?_⟩
  rw [State.sumOn_reply, harch, Arch.sumReply, Arch.digest_write_clear]
  rfl

end Sys2Proof.Machine
end

section
/-! PROOFS. Whole transactions through the ports (R62, R63, R70): the payload phase and the response phase as runs of
steps, by induction on the bytes, with the one step between them. -/

namespace Sys2Proof.Machine

/-- Some number of steps leads from `s` to `t`. -/
def Reaches (s t : State) : Prop := ∃ k, core.run k s = .next t

theorem Reaches.refl (s : State) : Reaches s s := ⟨0, core_run_zero s⟩

theorem Reaches.head {s u t : State} (h : step s = .next u) (hrun : Reaches u t) : Reaches s t :=
  let ⟨k, hk⟩ := hrun
  ⟨k + 1, (core_run_step k h).trans hk⟩

section
variable {s : State} (hn : s.rstN = true)
include hn

/-- The payload bytes are taken one by one (R62). -/
theorem reaches_of_payload {t : State} {w : Word} {got p : List Byte} {rest : List HostEvent}
    (hlen : got.length + p.length ≤ lenField w)
    (h : Reaches { s with seq := .payload w (got ++ p), host := rest } t) :
    Reaches { s with seq := .payload w got, host := p.map .dinByte ++ rest } t := by
  induction p generalizing got with
  | nil => rwa [List.append_nil] at h
  | cons b p ih =>
    rw [List.length_cons] at hlen
    refine .head (step_payload_dinByte (s := { s with seq := .payload w got, host := _ }) rfl hn (by omega) rfl)
      (ih ?_ ?_)
    · rw [List.length_append, List.length_singleton]; omega
    · rwa [List.append_assoc]

/-- The response bytes are given one by one (R63). -/
theorem reaches_of_afterWord (p : List Byte) (o : List Delivered) (rest : List HostEvent) :
    Reaches { s with seq := afterWord p, host := List.replicate p.length .takeDout ++ rest, out := o }
      { s with seq := .idle, host := rest, out := o ++ p.map .byte } := by
  induction p generalizing o with
  | nil =>
    rw [List.map_nil, List.append_nil]
    exact .refl _
  | cons b p ih =>
    have hrest := ih (o ++ [.byte b])
    rw [List.append_assoc] at hrest
    exact .head (step_dout_takeDout (s := { s with seq := afterWord (b :: p), host := _, out := o }) hn rfl rfl) hrest

/-- The response word and then its bytes are given, and the engine is idle (R63, R207). -/
theorem reaches_of_respond (w : Word) (p : List Byte) (rest : List HostEvent) :
    Reaches { s with seq := .respond w p, host := takeEvents p.length ++ rest }
      { s with seq := .idle, host := rest, out := s.out ++ .word w :: p.map .byte } := by
  have hbytes := reaches_of_afterWord hn p (s.out ++ [.word w]) rest
  rw [List.append_assoc] at hbytes
  exact .head (step_respond_takeRsp (s := { s with seq := .respond w p, host := _ }) hn rfl rfl) hbytes

/-- From idle, a command word and its payload bring SEQ to hold them (R62, R234). -/
theorem reaches_of_rawEvents {t : State} {w : Word} {p : List Byte} {rest : List HostEvent} (hseq : s.seq = .idle)
    (hh : s.host = rawEvents w p ++ rest) (hlen : p.length ≤ lenField w)
    (h : Reaches { s with seq := .payload w p, host := rest } t) : Reaches s t :=
  .head (step_idle_cmdWord hn hseq hh) (reaches_of_payload hn (got := []) (by simpa using hlen) h)

end

/-- No host command reads or writes the host's script. -/
theorem State.effect_withHost (s : State) (hs : List HostEvent) {i : Instr} (hi : i.hostIssuable = true) :
    (s.withHost hs).effect i = (s.effect i).withHost hs := by
  cases i with
  | write p => exact congrArg (State.respond · .ok []) (s.writeBytes_ports s.seq hs p)
  | sum | reset | size | blockSize | marshal => rfl
  | unmarshal p => exact (apply_ite (State.withHost · hs) (snapOk s.variant p = true) ((s.restore p).respond .ok [])
    (s.raise .corruptState)).symm
  | keccakF | round | theta | rho | pi | chi | iota | absorbBlock | pad | squeeze => cases hi

theorem exec_withHost {s u : State} {i : Instr} (hi : i.hostIssuable = true) (h : exec i s = .next u)
    (hs : List HostEvent) : exec i (s.withHost hs) = .next (u.withHost hs) := by
  obtain ⟨hready, rfl⟩ := exec_eq_next_iff.mp h
  have hready' : (s.withHost hs).Ready i := by
    cases i <;> exact hready
  exact exec_eq_next_iff.mpr ⟨hready', (s.effect_withHost hs hi).symm⟩

theorem State.seq_of_reply {u : State} {w : Word} {p : List Byte} (h : u.reply = some (w, p)) :
    u.seq = .respond w p := by
  cases hseq : u.seq with
  | respond w' p' =>
    simp only [State.reply, hseq, Option.some.injEq, Prod.mk.injEq] at h
    rw [h.1, h.2]
  | idle | payload | micro | dout => simp [State.reply, hseq] at h

/-- Settles O18: the payload phase, the step that runs the command in front of the host's taking of the response, and
the response phase. -/
theorem transactionIsTheCommand : Obligations.TransactionIsTheCommand := by
  intro s u i w p rest hwf hi hn hidle hh hexec hreply
  have hseq := State.seq_of_reply hreply
  obtain ⟨-, hrstN, -, hout⟩ := (exec_eq_next_iff.mp hexec).2 ▸ s.effect_frame i
  have hu : u.withHost (takeEvents p.length ++ rest)
      = { u with seq := .respond w p, host := takeEvents p.length ++ rest } := by
    rw [← hseq]; rfl
  have hs : ({ s with seq := .idle, host := takeEvents p.length ++ rest } : State)
      = s.withHost (takeEvents p.length ++ rest) := by
    rw [← hidle]; rfl
  have hrun : step { s with seq := .payload i.headWord i.payload, host := takeEvents p.length ++ rest }
      = .next { u with seq := .respond w p, host := takeEvents p.length ++ rest } := by
    rw [← hu, ← exec_withHost hi hexec, ← hs]
    exact step_command (State.running_of_head hn rfl rfl) rfl (decodeCommand_headWord hi hwf)
  rw [← hout]
  refine reaches_of_rawEvents hn hidle (hh.trans (List.append_assoc _ _ _)) (lenField_headWord hi hwf).ge ?_
  exact .head hrun (reaches_of_respond (hrstN.trans hn) w p rest)

/-- Settles O19: the payload phase, the step that rejects the command, and the response phase. -/
theorem illegalTransaction : Obligations.IllegalTransaction := by
  intro s w p e rest hlen hdec hn hidle hh
  have hreject : step { s with seq := .payload w p, host := takeEvents 0 ++ rest }
      = .next { s with seq := .respond 0x00000002 [], host := takeEvents 0 ++ rest } :=
    step_payload_rejected rfl (State.running_of_head hn rfl rfl) hlen.ge hdec
  have hgiven := reaches_of_respond hn 0x00000002 [] rest
  rw [← hidle] at hgiven
  exact reaches_of_rawEvents hn hidle (hh.trans (List.append_assoc _ _ _)) hlen.le (.head hreject hgiven)

end Sys2Proof.Machine
end
